-- ==== Sys2Proof/Word.lean ====
section
/-! DEFINITION. The word types of the machine (spec/00_scope.md R6, R7): widths only, every one a plain bit vector. -/

namespace Sys2Proof

/-- A data byte: W, a file register, an 8-bit literal (R6 `DW`). -/
abbrev Byte := BitVec 8

/-- One instruction word, bits 13..0 (R6 `IW`, R90). -/
abbrev InstrWord := BitVec 14

/-- A program address, the width of the program counter (R6 `PCW`). -/
abbrev ProgAddr := BitVec 15

/-- A data memory address, BSR ++ f (R61). -/
abbrev DataAddr := BitVec 12

/-- An FSR value, an address of FSR space (R6 `FSRW`, R75). -/
abbrev Ptr := BitVec 16

/-- The 7-bit file operand `f` of an instruction (R93). -/
abbrev FileAddr := BitVec 7

end Sys2Proof
end

