-- ==== Sys2Proof/Syntax.lean ====
section
/-! DEFINITION. The instruction set: one constructor per row of spec/opcode_table.json, in the order of Table 28-3
(spec/30_encoding.md R105). Fields that the manual treats as bits are bit vectors; the two signed literals are integers whose
range `Instr.wellFormed` checks. -/

namespace Sys2Proof

/-- The destination select `d` (R12, R94): 0 is W, 1 is the file register. -/
inductive Dest where
  | w
  | f
deriving DecidableEq, Repr

/-- Which FSR/INDF pair, the operand `n` (R14). -/
inductive FsrSel where
  | fsr0
  | fsr1
deriving DecidableEq, Repr

/-- The mode field `mm` of MOVIW and MOVWI (R102). -/
inductive FsrMode where
  | preInc
  | preDec
  | postInc
  | postDec
deriving DecidableEq, Repr

/-- An instruction of Table 28-3. -/
inductive Instr where
  -- byte-oriented file register operations (R125 to R144)
  | addwf (f : FileAddr) (d : Dest)
  | addwfc (f : FileAddr) (d : Dest)
  | andwf (f : FileAddr) (d : Dest)
  | asrf (f : FileAddr) (d : Dest)
  | lslf (f : FileAddr) (d : Dest)
  | lsrf (f : FileAddr) (d : Dest)
  | clrf (f : FileAddr)
  /-- `x`: the two don't-care bits of CLRW's word (R104); they have no effect. -/
  | clrw (x : BitVec 2)
  | comf (f : FileAddr) (d : Dest)
  | decf (f : FileAddr) (d : Dest)
  | incf (f : FileAddr) (d : Dest)
  | iorwf (f : FileAddr) (d : Dest)
  | movf (f : FileAddr) (d : Dest)
  | movwf (f : FileAddr)
  | rlf (f : FileAddr) (d : Dest)
  | rrf (f : FileAddr) (d : Dest)
  | subwf (f : FileAddr) (d : Dest)
  | subwfb (f : FileAddr) (d : Dest)
  | swapf (f : FileAddr) (d : Dest)
  | xorwf (f : FileAddr) (d : Dest)
  -- byte-oriented skip operations (R151, R152)
  | decfsz (f : FileAddr) (d : Dest)
  | incfsz (f : FileAddr) (d : Dest)
  -- bit-oriented file register operations (R156, R157)
  | bcf (f : FileAddr) (b : BitVec 3)
  | bsf (f : FileAddr) (b : BitVec 3)
  -- bit-oriented skip operations (R161, R162)
  | btfsc (f : FileAddr) (b : BitVec 3)
  | btfss (f : FileAddr) (b : BitVec 3)
  -- literal operations (R166 to R173)
  | addlw (k : Byte)
  | andlw (k : Byte)
  | iorlw (k : Byte)
  | movlb (k : BitVec 5)
  | movlp (k : BitVec 7)
  | movlw (k : Byte)
  | sublw (k : Byte)
  | xorlw (k : Byte)
  -- control operations (R183 to R190)
  /-- `k` is the signed 9-bit field, -256..255 (R100). -/
  | bra (k : Int)
  | brw
  | call (k : BitVec 11)
  | callw
  | goto (k : BitVec 11)
  | retfie
  | retlw (k : Byte)
  | ret
  -- inherent operations (R196 to R201); the table writes TRIS as three fixed words
  | clrwdt
  | nop
  | option
  | reset
  | sleep
  | tris5
  | tris6
  | tris7
  -- C-compiler optimized operations (R212 to R216); `k` is the signed 6-bit field, -32..31 (R101)
  | addfsr (n : FsrSel) (k : Int)
  | moviwMode (n : FsrSel) (mm : FsrMode)
  | moviwIndexed (n : FsrSel) (k : Int)
  | movwiMode (n : FsrSel) (mm : FsrMode)
  | movwiIndexed (n : FsrSel) (k : Int)
deriving DecidableEq, Repr

end Sys2Proof
end

