-- ==== Sys2Proof/Config.lean ====
section
/-! DEFINITION. What an implementation fixes (the open parameters of spec/00_scope.md R6, plain data that a claim may name)
and the free values (values the spec leaves without a number: opaque, so that nothing can be proved of them). -/

namespace Sys2Proof

/-- A run of data addresses that hold general purpose RAM, both ends included (R68). -/
structure GprRange where
  lo : Nat
  hi : Nat
deriving DecidableEq, Repr

/-- How a TRIS register reads back (R40 `TRIS_MASKS`): a read gives `(stored AND implemented) OR readsOne`. -/
structure TrisMask where
  implemented : Byte
  readsOne : Byte
deriving DecidableEq, Repr

/-- The twelve core registers (R50). -/
inductive CoreReg where
  | indf0
  | indf1
  | pcl
  | status
  | fsr0l
  | fsr0h
  | fsr1l
  | fsr1h
  | bsr
  | wreg
  | pclath
  | intcon
deriving DecidableEq, Repr

/-- The treatment of a reserved instruction word (R6 `RESERVED_OPCODE`). The spec admits one: never a NOP (D15). -/
inductive ReservedTreatment where
  | refuse
deriving DecidableEq, Repr

/-- The treatment of a RETFIE that would restore from shadow registers to which nothing has given a value since power-on. The spec's
is the refusal (R190, D21, U11); the other is the model's own alternative (assumption log 5). -/
inductive UnknownShadows where
  /-- The spec's treatment: the instruction is refused. -/
  | refuse
  /-- The instruction runs and restores what the fields of the shadow registers hold. -/
  | useValue
deriving DecidableEq, Repr

/-- A column of the reset table (R51), row by row, without the entries that depend on the cause (`q`) and without GPR, which has no
number in either column. A number is `some` of it. `none` is the column's other entry: in the power-on column `x`, no value is
given; in the column of the other resets `u`, the value is kept. The row of pc is `Params.resetVector`. -/
structure ResetColumn where
  w : Option Byte
  c : Option Bool
  dc : Option Bool
  z : Option Bool
  fsr0 : Option Ptr
  fsr1 : Option Ptr
  bsr : Option (BitVec 5)
  pclath : Option (BitVec 7)
  gie : Option Bool
  intcon : Option (BitVec 7)
  optionReg : Option Byte
  trisA : Option Byte
  trisB : Option Byte
  trisC : Option Byte
  stack : List ProgAddr
  slot15 : Option ProgAddr
  wdt : Nat
  wdtPre : Nat
  sleeping : Bool
  wShad : Option Byte
  statusShad : Option (BitVec 3)
  bsrShad : Option (BitVec 5)
  pclathShad : Option (BitVec 7)
  fsr0Shad : Option Ptr
  fsr1Shad : Option Ptr
deriving DecidableEq, Repr

/-- The entries of the reset table that depend on the cause (R51 `q`, R261 "case kind of"): nTO, nPD and the bits of PCON; `none` as
in `ResetColumn`. -/
structure CauseEntries where
  nTO : Option Bool
  nPD : Option Bool
  stkovf : Option Bool
  stkunf : Option Bool
  nRWDT : Option Bool
  nRMCLR : Option Bool
  nRI : Option Bool
  nPOR : Option Bool
  nBOR : Option Bool
deriving DecidableEq, Repr

/-- `ResetValues` (R6, R51, D22): the reset table as data, its two columns and the entries of each cause. -/
structure ResetValues where
  powerOn : ResetColumn
  others : ResetColumn
  causePowerOn : CauseEntries
  causeBrownOut : CauseEntries
  causeMclrAwake : CauseEntries
  causeMclrAsleep : CauseEntries
  causeWatchdog : CauseEntries
  causeResetInstruction : CauseEntries
  causeStackOverflow : CauseEntries
  causeStackUnderflow : CauseEntries
deriving DecidableEq, Repr

/-- The configuration of R6: everything a device or a configuration word fixes for a run. It stands in `State.cfg`, is never
changed by a step, and every claim about all states is a claim about every configuration (assumption log 1, 3). -/
structure Params where
  /-- `NBANKS`: the banks of data memory (R6, R61). -/
  nbanks : Nat
  /-- `CoreRegMap`: the core registers at the offsets 0x00..0x0B of every bank, in order (R6, R50, D3). -/
  coreRegMap : List CoreReg
  /-- `SfrModel`: the addresses of peripheral registers to which the model gives a meaning, that of a plain byte of storage; an
  access to any other is refused (R6, R66, D5; assumption log 16). -/
  sfrModel : List DataAddr
  /-- `PM_WORDS`: implemented program memory, in words (R6, R78). -/
  pmWords : Nat
  /-- `GPR_MAP`: the banked general purpose RAM (R68). -/
  gprMap : List GprRange
  /-- `STACK_DEPTH` (R6, R43). -/
  stackDepth : Nat
  /-- `STVREN`: stack overflow and underflow reset the device (R6, R44). -/
  stvren : Bool
  /-- `WDT_ENABLED` (R6, R247). -/
  wdtEnabled : Bool
  /-- `AUTO_CONTEXT`: interrupt entry saves and RETFIE restores the context (R6, R47, R190). -/
  autoContext : Bool
  /-- What RETFIE does with shadow registers that hold no value (R190, D21, U11; assumption log 5). -/
  unknownShadows : UnknownShadows
  /-- `RESET_VECTOR` (R6, R79, D22). -/
  resetVector : ProgAddr
  /-- `INT_VECTOR` (R6, R79, R233, D20). -/
  intVector : ProgAddr
  /-- `RESERVED_OPCODE` treatment (R6, R108, D15). -/
  reservedOpcode : ReservedTreatment
  /-- `ResetValues` (R6, R51, D22). -/
  resetValues : ResetValues
  /-- `TRIS_MASKS` of TRISA, TRISB, TRISC (R40). -/
  trisAMask : TrisMask
  trisBMask : TrisMask
  trisCMask : TrisMask
  /-- `INT_LATENCY_MAX` (R6, R236): `none` is the spec's default, unbounded. -/
  intLatencyMax : Option Nat
deriving DecidableEq, Repr

/-- FREE VALUE (R48, R51, U5 "any value"; assumption log 4): what the RAM byte at a key holds after the `n`-th power-on
while nothing has written it. No body: no proof can learn a number from it. -/
opaque Config.powerOnByte (powerOn key : Nat) : Byte

/-- FREE VALUE (R51 legend `x`, U5, U13; assumption log 5, 6, 7): what a register that a power-on reset leaves without a value
holds after the `n`-th power-on; the second argument numbers the register. -/
opaque Config.powerOnBits (powerOn register : Nat) : BitVec 16

/-- FREE VALUE (R35 (c), U6; assumption log 8): which of C, DC, Z (bits 0, 1, 2) take the written byte, and which keep their old
value, at the `n`-th write to STATUS by an instruction that affects some but not all of them. -/
opaque Config.statusBitsWritten (n : Nat) : BitVec 3

end Sys2Proof
end

