-- ==== Sys2Proof/WellFormed.lean ====
section
/-! DEFINITION. Which instructions have an encoding (spec/30_encoding.md R93 to R103, R110; U20: an operand outside its field
cannot appear in program memory) and which configurations make sense (spec/00_scope.md R6). Fields that are bit vectors cannot
be out of range; the signed literals are integers and are checked here. -/

namespace Sys2Proof

/-- The range of a signed 9-bit literal (R100). -/
def inSigned9 (k : Int) : Bool := decide (-256 ≤ k) && decide (k ≤ 255)

/-- The range of a signed 6-bit literal (R101). -/
def inSigned6 (k : Int) : Bool := decide (-32 ≤ k) && decide (k ≤ 31)

/-- The instruction has an encoding: every operand fits its field (R93 to R103, R110). -/
def Instr.wellFormed : Instr → Bool
  | .addwf _ _ => true
  | .addwfc _ _ => true
  | .andwf _ _ => true
  | .asrf _ _ => true
  | .lslf _ _ => true
  | .lsrf _ _ => true
  | .clrf _ => true
  | .clrw _ => true
  | .comf _ _ => true
  | .decf _ _ => true
  | .incf _ _ => true
  | .iorwf _ _ => true
  | .movf _ _ => true
  | .movwf _ => true
  | .rlf _ _ => true
  | .rrf _ _ => true
  | .subwf _ _ => true
  | .subwfb _ _ => true
  | .swapf _ _ => true
  | .xorwf _ _ => true
  | .decfsz _ _ => true
  | .incfsz _ _ => true
  | .bcf _ _ => true
  | .bsf _ _ => true
  | .btfsc _ _ => true
  | .btfss _ _ => true
  | .addlw _ => true
  | .andlw _ => true
  | .iorlw _ => true
  | .movlb _ => true
  | .movlp _ => true
  | .movlw _ => true
  | .sublw _ => true
  | .xorlw _ => true
  | .bra k => inSigned9 k
  | .brw => true
  | .call _ => true
  | .callw => true
  | .goto _ => true
  | .retfie => true
  | .retlw _ => true
  | .ret => true
  | .clrwdt => true
  | .nop => true
  | .option => true
  | .reset => true
  | .sleep => true
  | .tris5 => true
  | .tris6 => true
  | .tris7 => true
  | .addfsr _ k => inSigned6 k
  | .moviwMode _ _ => true
  | .moviwIndexed _ k => inSigned6 k
  | .movwiMode _ _ => true
  | .movwiIndexed _ k => inSigned6 k

/-- A run of RAM addresses lies in the banked GPR region of one bank, offsets 0x20..0x6F (R62, R68). -/
def GprRange.wellFormed (r : GprRange) : Bool :=
  decide (r.lo ≤ r.hi) && decide (r.hi < 4096) && decide (r.lo / 128 = r.hi / 128) &&
    decide (0x20 ≤ r.lo % 128) && decide (r.hi % 128 ≤ 0x6F)

/-- A configuration the spec admits: at most the 32 banks that BSR can select and the twelve core registers in them (R6, R50),
program memory within the reach of a 15-bit pc (R26, R78), a stack that its 5-bit pointer and 4-bit slot number can show and that has
room for what a reset puts there (R43, R51), RAM in the banked GPR region (R62, R68). -/
def Params.wellFormed (p : Params) : Bool :=
  decide (1 ≤ p.nbanks) && decide (p.nbanks ≤ 32) && decide (p.coreRegMap.length = 12) && decide p.coreRegMap.Nodup &&
    decide (1 ≤ p.pmWords) && decide (p.pmWords ≤ 32768) && decide (1 ≤ p.stackDepth) && decide (p.stackDepth ≤ 16) &&
    decide (p.resetValues.powerOn.stack.length ≤ p.stackDepth) && decide (p.resetValues.others.stack.length ≤ p.stackDepth) &&
    p.gprMap.all GprRange.wellFormed

end Sys2Proof
end

