-- ==== Sys2Proof/Decode.lean ====
section
/-! DEFINITION. Decoding and encoding of the 14-bit instruction words (spec/30_encoding.md R90 to R108): the fields, the opcode
table with its mask and match columns (R105), the decoder that finds the row of a word (R96), total and refusing the 192
reserved words by name (R108), and the encoder written from the pattern column. -/

namespace Sys2Proof

/-- Why bits are not an instruction. -/
inductive DecodeReject where
  /-- The word matches no row of the opcode table (R108). -/
  | reservedOpcode (w : InstrWord)
  /-- The number does not fit the 14 bits of an instruction word (R90). -/
  | wordTooWide (n : Nat)
  /-- Fewer than the two bytes that hold one instruction word (R90). -/
  | tooFewBytes
deriving DecidableEq, Repr

/-- `f` of BYTE, FILE, BIT (R93). -/
def fieldF (w : InstrWord) : FileAddr := w.extractLsb' 0 7
/-- `d` of BYTE (R94). -/
def fieldD (w : InstrWord) : Dest := if w.getLsbD 7 then .f else .w
/-- `b` of BIT (R95). -/
def fieldB (w : InstrWord) : BitVec 3 := w.extractLsb' 7 3
/-- The don't-care bits of CLRW (R104). -/
def fieldX (w : InstrWord) : BitVec 2 := w.extractLsb' 0 2
/-- `k` of LIT8 (R97). -/
def fieldK8 (w : InstrWord) : Byte := w.extractLsb' 0 8
/-- `k` of LIT5, MOVLB (R98). -/
def fieldK5 (w : InstrWord) : BitVec 5 := w.extractLsb' 0 5
/-- `k` of LIT7, MOVLP (R98). -/
def fieldK7 (w : InstrWord) : BitVec 7 := w.extractLsb' 0 7
/-- `k` of LIT11, CALL and GOTO (R99). -/
def fieldK11 (w : InstrWord) : BitVec 11 := w.extractLsb' 0 11
/-- `k` of LIT9, BRA: two's complement (R100). -/
def fieldK9 (w : InstrWord) : Int := (w.extractLsb' 0 9).toInt
/-- `k` of FSR6: two's complement (R101). -/
def fieldK6 (w : InstrWord) : Int := (w.extractLsb' 0 6).toInt
/-- `n` of FSR6 (R101). -/
def fieldN6 (w : InstrWord) : FsrSel := if w.getLsbD 6 then .fsr1 else .fsr0
/-- `n` of FSRMM (R102). -/
def fieldN2 (w : InstrWord) : FsrSel := if w.getLsbD 2 then .fsr1 else .fsr0
/-- `mm` of FSRMM (R102): 00 preincrement, 01 predecrement, 10 postincrement, 11 postdecrement. -/
def fieldMm (w : InstrWord) : FsrMode :=
  if w.getLsbD 1 then (if w.getLsbD 0 then .postDec else .postInc) else (if w.getLsbD 0 then .preDec else .preInc)

/-- One row of the opcode table (R105): the words `w` with `w AND mask = value` are this instruction. -/
structure OpRow where
  mnemonic : String
  value : InstrWord
  mask : InstrWord
  build : InstrWord → Instr

/-- Byte-oriented file register operations: rows of R105. -/
def byteRows : List OpRow :=
  [ ⟨"ADDWF", 0x0700#14, 0x3F00#14, fun w => .addwf (fieldF w) (fieldD w)⟩
  , ⟨"ADDWFC", 0x3D00#14, 0x3F00#14, fun w => .addwfc (fieldF w) (fieldD w)⟩
  , ⟨"ANDWF", 0x0500#14, 0x3F00#14, fun w => .andwf (fieldF w) (fieldD w)⟩
  , ⟨"ASRF", 0x3700#14, 0x3F00#14, fun w => .asrf (fieldF w) (fieldD w)⟩
  , ⟨"LSLF", 0x3500#14, 0x3F00#14, fun w => .lslf (fieldF w) (fieldD w)⟩
  , ⟨"LSRF", 0x3600#14, 0x3F00#14, fun w => .lsrf (fieldF w) (fieldD w)⟩
  , ⟨"CLRF", 0x0180#14, 0x3F80#14, fun w => .clrf (fieldF w)⟩
  , ⟨"CLRW", 0x0100#14, 0x3FFC#14, fun w => .clrw (fieldX w)⟩
  , ⟨"COMF", 0x0900#14, 0x3F00#14, fun w => .comf (fieldF w) (fieldD w)⟩
  , ⟨"DECF", 0x0300#14, 0x3F00#14, fun w => .decf (fieldF w) (fieldD w)⟩
  , ⟨"INCF", 0x0A00#14, 0x3F00#14, fun w => .incf (fieldF w) (fieldD w)⟩
  , ⟨"IORWF", 0x0400#14, 0x3F00#14, fun w => .iorwf (fieldF w) (fieldD w)⟩
  , ⟨"MOVF", 0x0800#14, 0x3F00#14, fun w => .movf (fieldF w) (fieldD w)⟩
  , ⟨"MOVWF", 0x0080#14, 0x3F80#14, fun w => .movwf (fieldF w)⟩
  , ⟨"RLF", 0x0D00#14, 0x3F00#14, fun w => .rlf (fieldF w) (fieldD w)⟩
  , ⟨"RRF", 0x0C00#14, 0x3F00#14, fun w => .rrf (fieldF w) (fieldD w)⟩
  , ⟨"SUBWF", 0x0200#14, 0x3F00#14, fun w => .subwf (fieldF w) (fieldD w)⟩
  , ⟨"SUBWFB", 0x3B00#14, 0x3F00#14, fun w => .subwfb (fieldF w) (fieldD w)⟩
  , ⟨"SWAPF", 0x0E00#14, 0x3F00#14, fun w => .swapf (fieldF w) (fieldD w)⟩
  , ⟨"XORWF", 0x0600#14, 0x3F00#14, fun w => .xorwf (fieldF w) (fieldD w)⟩ ]

/-- Skips and bit operations: rows of R105. -/
def skipBitRows : List OpRow :=
  [ ⟨"DECFSZ", 0x0B00#14, 0x3F00#14, fun w => .decfsz (fieldF w) (fieldD w)⟩
  , ⟨"INCFSZ", 0x0F00#14, 0x3F00#14, fun w => .incfsz (fieldF w) (fieldD w)⟩
  , ⟨"BCF", 0x1000#14, 0x3C00#14, fun w => .bcf (fieldF w) (fieldB w)⟩
  , ⟨"BSF", 0x1400#14, 0x3C00#14, fun w => .bsf (fieldF w) (fieldB w)⟩
  , ⟨"BTFSC", 0x1800#14, 0x3C00#14, fun w => .btfsc (fieldF w) (fieldB w)⟩
  , ⟨"BTFSS", 0x1C00#14, 0x3C00#14, fun w => .btfss (fieldF w) (fieldB w)⟩ ]

/-- Literal operations: rows of R105. -/
def literalRows : List OpRow :=
  [ ⟨"ADDLW", 0x3E00#14, 0x3F00#14, fun w => .addlw (fieldK8 w)⟩
  , ⟨"ANDLW", 0x3900#14, 0x3F00#14, fun w => .andlw (fieldK8 w)⟩
  , ⟨"IORLW", 0x3800#14, 0x3F00#14, fun w => .iorlw (fieldK8 w)⟩
  , ⟨"MOVLB", 0x0020#14, 0x3FE0#14, fun w => .movlb (fieldK5 w)⟩
  , ⟨"MOVLP", 0x3180#14, 0x3F80#14, fun w => .movlp (fieldK7 w)⟩
  , ⟨"MOVLW", 0x3000#14, 0x3F00#14, fun w => .movlw (fieldK8 w)⟩
  , ⟨"SUBLW", 0x3C00#14, 0x3F00#14, fun w => .sublw (fieldK8 w)⟩
  , ⟨"XORLW", 0x3A00#14, 0x3F00#14, fun w => .xorlw (fieldK8 w)⟩ ]

/-- Control operations: rows of R105. -/
def controlRows : List OpRow :=
  [ ⟨"BRA", 0x3200#14, 0x3E00#14, fun w => .bra (fieldK9 w)⟩
  , ⟨"BRW", 0x000B#14, 0x3FFF#14, fun _ => .brw⟩
  , ⟨"CALL", 0x2000#14, 0x3800#14, fun w => .call (fieldK11 w)⟩
  , ⟨"CALLW", 0x000A#14, 0x3FFF#14, fun _ => .callw⟩
  , ⟨"GOTO", 0x2800#14, 0x3800#14, fun w => .goto (fieldK11 w)⟩
  , ⟨"RETFIE", 0x0009#14, 0x3FFF#14, fun _ => .retfie⟩
  , ⟨"RETLW", 0x3400#14, 0x3F00#14, fun w => .retlw (fieldK8 w)⟩
  , ⟨"RETURN", 0x0008#14, 0x3FFF#14, fun _ => .ret⟩ ]

/-- Inherent operations: rows of R105. -/
def inherentRows : List OpRow :=
  [ ⟨"CLRWDT", 0x0064#14, 0x3FFF#14, fun _ => .clrwdt⟩
  , ⟨"NOP", 0x0000#14, 0x3FFF#14, fun _ => .nop⟩
  , ⟨"OPTION", 0x0062#14, 0x3FFF#14, fun _ => .option⟩
  , ⟨"RESET", 0x0001#14, 0x3FFF#14, fun _ => .reset⟩
  , ⟨"SLEEP", 0x0063#14, 0x3FFF#14, fun _ => .sleep⟩
  , ⟨"TRIS", 0x0065#14, 0x3FFF#14, fun _ => .tris5⟩
  , ⟨"TRIS", 0x0066#14, 0x3FFF#14, fun _ => .tris6⟩
  , ⟨"TRIS", 0x0067#14, 0x3FFF#14, fun _ => .tris7⟩ ]

/-- C-compiler optimized operations: rows of R105. -/
def fsrRows : List OpRow :=
  [ ⟨"ADDFSR", 0x3100#14, 0x3F80#14, fun w => .addfsr (fieldN6 w) (fieldK6 w)⟩
  , ⟨"MOVIW", 0x0010#14, 0x3FF8#14, fun w => .moviwMode (fieldN2 w) (fieldMm w)⟩
  , ⟨"MOVIW", 0x3F00#14, 0x3F80#14, fun w => .moviwIndexed (fieldN6 w) (fieldK6 w)⟩
  , ⟨"MOVWI", 0x0018#14, 0x3FF8#14, fun w => .movwiMode (fieldN2 w) (fieldMm w)⟩
  , ⟨"MOVWI", 0x3F80#14, 0x3F80#14, fun w => .movwiIndexed (fieldN6 w) (fieldK6 w)⟩ ]

/-- The complete opcode table (R105), in the order of Table 28-3. -/
def opTable : List OpRow :=
  byteRows ++ skipBitRows ++ literalRows ++ controlRows ++ inherentRows ++ fsrRows

/-- The word belongs to the row (R96). -/
def OpRow.covers (r : OpRow) (w : InstrWord) : Bool := w &&& r.mask == r.value

/-- The row of a word, if it has one (R96). -/
def opRowOf (w : InstrWord) : Option OpRow := opTable.find? fun r => r.covers w

/-- `Decode(iw)` (R96); a word of no row is reserved (R108). -/
def decode (w : InstrWord) : Except DecodeReject Instr :=
  match opRowOf w with
  | some r => .ok (r.build w)
  | none => .error (.reservedOpcode w)

/-- Decoding a number as an instruction word: total, refusing what does not fit 14 bits (R90). -/
def decodeNat (n : Nat) : Except DecodeReject Instr :=
  if n < 2 ^ 14 then decode (BitVec.ofNat 14 n) else .error (.wordTooWide n)

/-- Decoding any bytes: a word as two bytes, the low byte first, with the rest handed back. The hardware fetches whole words and
has no byte order of fetch (R70); this order is the one a program image in bytes uses here (assumption log 30). -/
def decodeBytes : List Byte → Except DecodeReject (Instr × List Byte)
  | lo :: hi :: rest =>
    match decodeNat (hi.toNat * 256 + lo.toNat) with
    | .ok i => .ok (i, rest)
    | .error e => .error e
  | _ => .error .tooFewBytes

/-- The instruction the decoder reads from the word numbered as spec/opcode_table.json numbers its bits: every instruction is
one 14-bit word (R90), and the bits above `nbits` are 0. -/
def decodeTableWord (nbits w : Nat) : Option Instr :=
  match decodeNat (w % 2 ^ nbits) with
  | .ok i => some i
  | .error _ => none

/-- The bit of `d` (R94). -/
def Dest.bit : Dest → BitVec 1
  | .w => 0b0#1
  | .f => 0b1#1

/-- The bit of `n` (R14). -/
def FsrSel.bit : FsrSel → BitVec 1
  | .fsr0 => 0b0#1
  | .fsr1 => 0b1#1

/-- The bits of `mm` (R102). -/
def FsrMode.bits : FsrMode → BitVec 2
  | .preInc => 0b00#2
  | .preDec => 0b01#2
  | .postInc => 0b10#2
  | .postDec => 0b11#2

/-- The word of an instruction, by the pattern column of R105 (bit 13 on the left). -/
def encode : Instr → InstrWord
  | .addwf f d => 0b000111#6 ++ d.bit ++ f
  | .addwfc f d => 0b111101#6 ++ d.bit ++ f
  | .andwf f d => 0b000101#6 ++ d.bit ++ f
  | .asrf f d => 0b110111#6 ++ d.bit ++ f
  | .lslf f d => 0b110101#6 ++ d.bit ++ f
  | .lsrf f d => 0b110110#6 ++ d.bit ++ f
  | .clrf f => 0b0000011#7 ++ f
  | .clrw x => 0b000001000000#12 ++ x
  | .comf f d => 0b001001#6 ++ d.bit ++ f
  | .decf f d => 0b000011#6 ++ d.bit ++ f
  | .incf f d => 0b001010#6 ++ d.bit ++ f
  | .iorwf f d => 0b000100#6 ++ d.bit ++ f
  | .movf f d => 0b001000#6 ++ d.bit ++ f
  | .movwf f => 0b0000001#7 ++ f
  | .rlf f d => 0b001101#6 ++ d.bit ++ f
  | .rrf f d => 0b001100#6 ++ d.bit ++ f
  | .subwf f d => 0b000010#6 ++ d.bit ++ f
  | .subwfb f d => 0b111011#6 ++ d.bit ++ f
  | .swapf f d => 0b001110#6 ++ d.bit ++ f
  | .xorwf f d => 0b000110#6 ++ d.bit ++ f
  | .decfsz f d => 0b001011#6 ++ d.bit ++ f
  | .incfsz f d => 0b001111#6 ++ d.bit ++ f
  | .bcf f b => 0b0100#4 ++ b ++ f
  | .bsf f b => 0b0101#4 ++ b ++ f
  | .btfsc f b => 0b0110#4 ++ b ++ f
  | .btfss f b => 0b0111#4 ++ b ++ f
  | .addlw k => 0b111110#6 ++ k
  | .andlw k => 0b111001#6 ++ k
  | .iorlw k => 0b111000#6 ++ k
  | .movlb k => 0b000000001#9 ++ k
  | .movlp k => 0b1100011#7 ++ k
  | .movlw k => 0b110000#6 ++ k
  | .sublw k => 0b111100#6 ++ k
  | .xorlw k => 0b111010#6 ++ k
  | .bra k => 0b11001#5 ++ BitVec.ofInt 9 k
  | .brw => 0b00000000001011#14
  | .call k => 0b100#3 ++ k
  | .callw => 0b00000000001010#14
  | .goto k => 0b101#3 ++ k
  | .retfie => 0b00000000001001#14
  | .retlw k => 0b110100#6 ++ k
  | .ret => 0b00000000001000#14
  | .clrwdt => 0b00000001100100#14
  | .nop => 0b00000000000000#14
  | .option => 0b00000001100010#14
  | .reset => 0b00000000000001#14
  | .sleep => 0b00000001100011#14
  | .tris5 => 0b00000001100101#14
  | .tris6 => 0b00000001100110#14
  | .tris7 => 0b00000001100111#14
  | .addfsr n k => 0b1100010#7 ++ n.bit ++ BitVec.ofInt 6 k
  | .moviwMode n mm => 0b00000000010#11 ++ n.bit ++ mm.bits
  | .moviwIndexed n k => 0b1111110#7 ++ n.bit ++ BitVec.ofInt 6 k
  | .movwiMode n mm => 0b00000000011#11 ++ n.bit ++ mm.bits
  | .movwiIndexed n k => 0b1111111#7 ++ n.bit ++ BitVec.ofInt 6 k

end Sys2Proof
end

