-- ==== Sys2Proof/Machine/Flags.lean ====
section
/-! DEFINITION. The 8-bit arithmetic and every flag computation (spec/10_state.md R30 to R32, R36; spec/40_byte_oriented.md R121,
R122, R128 to R130, R139, R140). -/

namespace Sys2Proof.Machine

/-- The flags an instruction writes (its "Status Affected" list, R36): `none` leaves the flag as it is. -/
structure FlagWrite where
  c : Option Bool
  dc : Option Bool
  z : Option Bool
deriving DecidableEq, Repr

/-- How much of C, DC, Z an instruction affects: what decides a write to STATUS (R35). -/
inductive FlagKind where
  | noFlags
  | someFlags
  | allFlags
deriving DecidableEq, Repr

/-- A result byte with the flags that go with it. -/
structure AluResult where
  value : Byte
  flags : FlagWrite
deriving DecidableEq, Repr

/-- An empty Status Affected list. -/
def FlagWrite.nothing : FlagWrite := { c := none, dc := none, z := none }

/-- R35's three cases. -/
def FlagWrite.kind (f : FlagWrite) : FlagKind :=
  match f.c, f.dc, f.z with
  | none, none, none => .noFlags
  | some _, some _, some _ => .allFlags
  | _, _, _ => .someFlags

/-- The Z flag of a result (R32). -/
def isZero (r : Byte) : Bool := r == 0

/-- A result that affects no flag. -/
def plainResult (r : Byte) : AluResult := { value := r, flags := .nothing }

/-- A result that affects Z only (R32). -/
def zResult (r : Byte) : AluResult := { value := r, flags := { c := none, dc := none, z := some (isZero r) } }

/-- A result that affects C only (R139, R140). -/
def cResult (r : Byte) (c : Bool) : AluResult := { value := r, flags := { c := some c, dc := none, z := none } }

/-- A result that affects C and Z (R128 to R130). -/
def czResult (r : Byte) (c : Bool) : AluResult :=
  { value := r, flags := { c := some c, dc := none, z := some (isZero r) } }

/-- `Add8(a, b, cin)` (R121): C is the carry out of bit 7, DC the carry out of bit 3, Z the result being 0. -/
def add8 (a b : Byte) (cin : Bool) : AluResult :=
  let s := a.toNat + b.toNat + cin.toNat
  let n := a.toNat % 16 + b.toNat % 16 + cin.toNat
  let r := BitVec.ofNat 8 s
  { value := r, flags := { c := some (decide (256 ≤ s)), dc := some (decide (16 ≤ n)), z := some (isZero r) } }

/-- `Sub8(a, b, cin)` (R122): the 2's complement method, `Add8(a, ~b, cin)`. -/
def sub8 (a b : Byte) (cin : Bool) : AluResult := add8 a (~~~b) cin

/-- ASRF's shift (R128): bit 7 stays, the old bit 0 goes to C. -/
def asr8 (v : Byte) : AluResult := czResult (v.extractLsb' 7 1 ++ v.extractLsb' 1 7) (v.getLsbD 0)

/-- LSLF's shift (R129): 0 enters bit 0, the old bit 7 goes to C. -/
def lsl8 (v : Byte) : AluResult := czResult (v.extractLsb' 0 7 ++ 0#1) (v.getLsbD 7)

/-- LSRF's shift (R130): 0 enters bit 7, the old bit 0 goes to C. -/
def lsr8 (v : Byte) : AluResult := czResult (0#1 ++ v.extractLsb' 1 7) (v.getLsbD 0)

/-- RLF's rotate (R139): the old C enters bit 0, the old bit 7 goes to C. -/
def rl8 (v : Byte) (c : Bool) : AluResult := cResult (v.extractLsb' 0 7 ++ BitVec.ofBool c) (v.getLsbD 7)

/-- RRF's rotate (R140): the old C enters bit 7, the old bit 0 goes to C. -/
def rr8 (v : Byte) (c : Bool) : AluResult := cResult (BitVec.ofBool c ++ v.extractLsb' 1 7) (v.getLsbD 0)

/-- SWAPF's exchange of nibbles (R143). -/
def swapNibbles (v : Byte) : Byte := v.extractLsb' 0 4 ++ v.extractLsb' 4 4

/-- `1 << b` as a byte (R156, R157). -/
def bitMask (b : BitVec 3) : Byte := 1#8 <<< b.toNat

/-- Bit `b` of a byte (R161, R162). -/
def bitOf (v : Byte) (b : BitVec 3) : Bool := v.getLsbD b.toNat

end Sys2Proof.Machine
end

