-- ==== Sys2Proof/Machine/Defaults.lean ====
section
/-! DEFINITION. The default values of the configuration (spec/00_scope.md R6), the reset table of spec/10_state.md R51 among them. -/

namespace Sys2Proof.Machine

/-- What a program word reads as where no program stands: the value of an erased flash word (R216, K38; assumption log 18). -/
def erasedWord : InstrWord := 0x3FFF

/-- `CoreRegMap` (R50, D3). -/
def coreRegMapDefault : List CoreReg :=
  [.indf0, .indf1, .pcl, .status, .fsr0l, .fsr0h, .fsr1l, .fsr1h, .bsr, .wreg, .pclath, .intcon]

/-- R51, column "power-on". A TRIS register stores 0xFF (R261). -/
def powerOnColumn : ResetColumn where
  w := some 0x00
  c := some false
  dc := some false
  z := some false
  fsr0 := some 0x0000
  fsr1 := some 0x0000
  bsr := some 0
  pclath := some 0
  gie := some false
  intcon := some 0
  optionReg := some 0xFF
  trisA := some 0xFF
  trisB := some 0xFF
  trisC := some 0xFF
  stack := []
  slot15 := none
  wdt := 0
  wdtPre := 0
  sleeping := false
  wShad := none
  statusShad := none
  bsrShad := none
  pclathShad := none
  fsr0Shad := none
  fsr1Shad := none

/-- R51, column "other resets". -/
def otherResetsColumn : ResetColumn where
  w := none
  c := none
  dc := none
  z := none
  fsr0 := none
  fsr1 := none
  bsr := some 0
  pclath := some 0
  gie := some false
  intcon := some 0
  optionReg := some 0xFF
  trisA := some 0xFF
  trisB := some 0xFF
  trisC := some 0xFF
  stack := []
  slot15 := none
  wdt := 0
  wdtPre := 0
  sleeping := false
  wShad := none
  statusShad := none
  bsrShad := none
  pclathShad := none
  fsr0Shad := none
  fsr1Shad := none

/-- No entry of a cause: nTO, nPD and PCON are kept. -/
def causeKeeps : CauseEntries where
  nTO := none
  nPD := none
  stkovf := none
  stkunf := none
  nRWDT := none
  nRMCLR := none
  nRI := none
  nPOR := none
  nBOR := none

/-- The table of R51, with the `q` entries of its notes (R261). -/
def resetValuesDefault : ResetValues where
  powerOn := powerOnColumn
  others := otherResetsColumn
  causePowerOn :=
    { nTO := some true, nPD := some true, stkovf := some false, stkunf := some false, nRWDT := some true, nRMCLR := some true
      nRI := some true, nPOR := some false, nBOR := none }
  causeBrownOut :=
    { nTO := some true, nPD := some true, stkovf := some false, stkunf := some false, nRWDT := some true, nRMCLR := some true
      nRI := some true, nPOR := none, nBOR := some false }
  causeMclrAwake := { causeKeeps with nRMCLR := some false }
  causeMclrAsleep := { causeKeeps with nRMCLR := some false, nTO := some true, nPD := some false }
  causeWatchdog := { causeKeeps with nRWDT := some false, nTO := some false }
  causeResetInstruction := { causeKeeps with nRI := some false }
  causeStackOverflow := { causeKeeps with stkovf := some true }
  causeStackUnderflow := { causeKeeps with stkunf := some true }

/-- `TRIS_MASKS` of TRISA (R40): bits 5:4 and 2:0 implemented, bit 3 reads 1, bits 7:6 read 0. -/
def trisAMaskDefault : TrisMask := { implemented := 0x37, readsOne := 0x08 }

/-- `TRIS_MASKS` of TRISB (R40): bits 7:4 implemented, bits 3:0 read 0. -/
def trisBMaskDefault : TrisMask := { implemented := 0xF0, readsOne := 0x00 }

/-- `TRIS_MASKS` of TRISC (R40): all eight bits implemented. -/
def trisCMaskDefault : TrisMask := { implemented := 0xFF, readsOne := 0x00 }

/-- The PIC16(L)F1508 with the defaults of R6: 32 banks (D2), the core registers of D3, no peripheral register modelled (D5), 4096
words (D10), RAM in banks 0, 1, 2 (R68), a stack of 16 levels, STVREN true, WDT_ENABLED false, AUTO_CONTEXT true, the vectors 0x0000
and 0x0004 (D20, D22), reserved words and a restore of shadow registers without a value refused (D15, D21), the reset table of R51,
no bound on the interrupt latency. -/
def params1508 : Params where
  nbanks := 32
  coreRegMap := coreRegMapDefault
  sfrModel := []
  pmWords := 4096
  gprMap := [⟨0x020, 0x06F⟩, ⟨0x0A0, 0x0EF⟩, ⟨0x120, 0x16F⟩]
  stackDepth := 16
  stvren := true
  wdtEnabled := false
  autoContext := true
  unknownShadows := .refuse
  resetVector := 0x0000
  intVector := 0x0004
  reservedOpcode := .refuse
  resetValues := resetValuesDefault
  trisAMask := trisAMaskDefault
  trisBMask := trisBMaskDefault
  trisCMask := trisCMaskDefault
  intLatencyMax := none

/-- The PIC16(L)F1509: 8192 words (R6), RAM in banks 0 to 5 and 16 bytes of bank 6 (R68). -/
def params1509 : Params :=
  { params1508 with
    pmWords := 8192
    gprMap := [⟨0x020, 0x06F⟩, ⟨0x0A0, 0x0EF⟩, ⟨0x120, 0x16F⟩, ⟨0x1A0, 0x1EF⟩, ⟨0x220, 0x26F⟩, ⟨0x2A0, 0x2EF⟩,
      ⟨0x320, 0x32F⟩] }

end Sys2Proof.Machine
end

