-- ==== Sys2Proof/Machine/State.lean ====
section
/-! DEFINITION. The machine's state as plain data (spec/10_state.md R20 to R54), the reasons a step can stop, and the state
after the power-on reset (R51, R261, R263). -/

namespace Sys2Proof.Machine

/-- The implemented bits of PCON (R38); bit 5 is unimplemented and has no storage. -/
structure Pcon where
  stkovf : Bool
  stkunf : Bool
  nRWDT : Bool
  nRMCLR : Bool
  nRI : Bool
  nPOR : Bool
  nBOR : Bool
deriving DecidableEq, Repr

/-- The kinds of device reset (R260). -/
inductive ResetKind where
  | powerOn
  | mclr
  | watchdog
  | resetInstruction
  | stackOverflow
  | stackUnderflow
  | brownOut
deriving DecidableEq, Repr

/-- The resets the environment raises from outside (R230 (e)). -/
inductive ExtReset where
  | powerOn
  | mclr
  | brownOut
deriving DecidableEq, Repr

/-- The shadow registers of bank 31 (R47). -/
inductive ShadowReg where
  | status
  | wreg
  | bsr
  | pclath
  | fsr0l
  | fsr0h
  | fsr1l
  | fsr1h
deriving DecidableEq, Repr

/-- Every shadow register, in the order of its addresses (R47). -/
def allShadows : List ShadowReg := [.status, .wreg, .bsr, .pclath, .fsr0l, .fsr0h, .fsr1l, .fsr1h]

/-- What the environment does around one machine step (R230, R236). Its fields are read in the order of R236's lines; a choice
whose condition does not hold has no effect. -/
structure EnvChoice where
  /-- Line 1: raise an external reset. -/
  extReset : Option ExtReset := none
  /-- Line 2: set TMR0IF (INTCON bit 2). -/
  setTmr0if : Bool := false
  /-- Line 2: set INTF (INTCON bit 1). -/
  setIntf : Bool := false
  /-- Line 2: set IOCIF (INTCON bit 0). -/
  setIocif : Bool := false
  /-- Line 2: a new value of PeriphReq. -/
  periph : Option Bool := none
  /-- Line 2: deliver a watchdog time-out, if WDT_ENABLED (R247). -/
  wdtTimeout : Bool := false
  /-- Line 3: wake a sleeping core, if a wake-up condition holds (R248). -/
  wake : Bool := false
  /-- Line 4: perform interrupt entry, if its condition holds (R235). -/
  intEntry : Bool := false
deriving DecidableEq, Repr

/-- Data memory: RAM bytes by key (R48, R68, R69), addresses strictly rising. An unlisted byte has no value. -/
abbrev Memory := List Host.Cell

/-- Program memory: words by address (R53, R78), addresses strictly rising, no entry equal to the erased word. -/
abbrev Program := List (Nat × InstrWord)

/-- The machine stops with a fault: never. The machine has no synchronous exception (R231) and the spec's part "Undefined and
reserved behaviour" has no `fault` entry, so this closed type has no constructor (assumption log 25). -/
inductive Fault
deriving DecidableEq, Repr

/-- The refusals of the spec (R11: the spec gives the situation no meaning). Each is safe: the model stops where the hardware
goes on. -/
inductive Refusal where
  /-- Raised by `exec` for an instruction that has no meaning yet. Safe. -/
  | notModelled (mnemonic : String)
  /-- Raised by the fetch of a word that matches no row of the opcode table (R108, U1). Safe. -/
  | reservedOpcode (w : InstrWord)
  /-- Raised by a fetch at or above PM_WORDS (R78, U4). Safe. -/
  | fetchOutsideProgram (a : ProgAddr)
  /-- Raised by a read of program memory through an FSR at or above PM_WORDS (R77, U4). Safe. -/
  | readOutsideProgram (a : ProgAddr)
  /-- Raised by an access to a special function register the spec does not model (R66, U2). Safe. -/
  | peripheralSfr (a : DataAddr)
  /-- Raised by an access through an FSR in a reserved range (R73, R74, U3). Safe. -/
  | reservedFsrAddress (p : Ptr)
  /-- Raised by DECFSZ or INCFSZ with PCL as destination (R54, U7). Safe. -/
  | skipWritesPcl
  /-- Raised by a software write to STKPTR, TOSL or TOSH (R43, U9). Safe. -/
  | stackRegisterWrite
  /-- Raised by a push on a full stack with STVREN false (R44, U8). Safe. -/
  | stackOverflowUnguarded
  /-- Raised by a pop from an empty stack with STVREN false (R44, U8). Safe. -/
  | stackUnderflowUnguarded
  /-- Raised by RETFIE with AUTO_CONTEXT while a shadow register holds no value, if the configuration asks for the spec's treatment
  (R182, R190, U11). Safe. -/
  | unknownShadowRegisters
  /-- Raised by an access to a bank at or above NBANKS, if the configuration has fewer banks than BSR can select (R6, R61; assumption
  log 17). Safe. -/
  | bankOutsideMemory (a : DataAddr)
  /-- Raised by a MOVIW or MOVWI `mm` form that addresses the FSR it modifies (R217, U17). Safe. -/
  | modifiesOwnFsr
deriving DecidableEq, Repr

/-- The state of the machine (R20), with the configuration and the program (parameters, R53), the environment's choices (R230)
and the model's own fields. -/
structure State where
  /-- W, the working register (R21). -/
  w : Byte
  /-- The address of the instruction to execute (R26). -/
  pc : ProgAddr
  /-- PCLATH (R25). -/
  pclath : BitVec 7
  /-- BSR (R24). -/
  bsr : BitVec 5
  /-- FSR0H:FSR0L (R28). -/
  fsr0 : Ptr
  /-- FSR1H:FSR1L (R28). -/
  fsr1 : Ptr
  /-- Carry (R30). -/
  c : Bool
  /-- Digit carry (R31). -/
  dc : Bool
  /-- Zero (R32). -/
  z : Bool
  /-- Time-out status bit, active low (R33). -/
  nTO : Bool
  /-- Power-down status bit, active low (R33). -/
  nPD : Bool
  /-- GIE, INTCON bit 7 (R37). -/
  gie : Bool
  /-- INTCON bits 6:0: PEIE, TMR0IE, INTE, IOCIE, TMR0IF, INTF, IOCIF (R37). -/
  intcon : BitVec 7
  /-- PCON (R38). -/
  pcon : Pcon
  /-- OPTION_REG (R39). -/
  optionReg : Byte
  /-- The stored byte of TRISA (R40). -/
  trisA : Byte
  /-- The stored byte of TRISB (R40). -/
  trisB : Byte
  /-- The stored byte of TRISC (R40). -/
  trisC : Byte
  /-- The watchdog timer, abstract: machine steps since it was cleared (R45; assumption log 9). -/
  wdt : Nat
  /-- The watchdog prescaler, abstract: machine steps since it was cleared (R45; assumption log 9). -/
  wdtPre : Nat
  /-- The return stack, newest entry first (R41 to R43). -/
  stack : List ProgAddr
  /-- What stack slot 15 last held: the slot an empty stack's STKPTR points at (R43; assumption log 6). -/
  slot15 : ProgAddr
  /-- The processor is in Sleep mode (R46). -/
  sleeping : Bool
  /-- General purpose and common RAM (R48). -/
  ram : Memory
  /-- WREG_SHAD (R47). -/
  wShad : Byte
  /-- STATUS_SHAD bits 2:0: Z, DC, C (R47). -/
  statusShad : BitVec 3
  /-- BSR_SHAD (R47). -/
  bsrShad : BitVec 5
  /-- PCLATH_SHAD (R47). -/
  pclathShad : BitVec 7
  /-- FSR0H_SHAD:FSR0L_SHAD (R47). -/
  fsr0Shad : Ptr
  /-- FSR1H_SHAD:FSR1L_SHAD (R47). -/
  fsr1Shad : Ptr
  /-- Program memory, a parameter of the run (R53, R78; assumption log 1). -/
  prog : Program
  /-- The configuration, a parameter of the run (R6; assumption log 1). -/
  cfg : Params
  /-- PeriphReq, the environment's lumped peripheral request (R232). -/
  periphReq : Bool
  /-- The environment's choices for the machine steps to come; none left means a quiet environment (assumption log 2). -/
  env : List EnvChoice
  /-- MODEL'S OWN: power-on resets so far, the argument of the free values (assumption log 10). -/
  powerOns : Nat
  /-- MODEL'S OWN: instructions executed while an interrupt entry was possible and not taken (assumption log 11). -/
  intWait : Nat
  /-- MODEL'S OWN: writes to STATUS whose outcome the spec leaves open so far, the argument of `Config.statusBitsWritten`
  (assumption log 8). -/
  statusPicks : Nat
  /-- MODEL'S OWN: the shadow registers that neither an interrupt entry nor software has written since power-on, those of which the
  spec says that they hold no value (R51 `x`, R190; assumption log 5). Only the refusal of R190 reads it. -/
  unwrittenShadows : List ShadowReg
deriving DecidableEq, Repr

/-- The state a run starts from: `Reset(PowerOn)` (R51, R261, R263) on a PIC16(L)F1508 with no program and a quiet environment.
The shadow registers, slot 15 and nBOR, to which the spec gives no value, hold 0 (assumption log 5, 6, 7). -/
def State.reset : State where
  w := 0
  pc := params1508.resetVector
  pclath := 0
  bsr := 0
  fsr0 := 0
  fsr1 := 0
  c := false
  dc := false
  z := false
  nTO := true
  nPD := true
  gie := false
  intcon := 0
  pcon := { stkovf := false, stkunf := false, nRWDT := true, nRMCLR := true, nRI := true, nPOR := false, nBOR := false }
  optionReg := 0xFF
  trisA := 0xFF
  trisB := 0xFF
  trisC := 0xFF
  wdt := 0
  wdtPre := 0
  stack := []
  slot15 := 0
  sleeping := false
  ram := []
  wShad := 0
  statusShad := 0
  bsrShad := 0
  pclathShad := 0
  fsr0Shad := 0
  fsr1Shad := 0
  prog := []
  cfg := params1508
  periphReq := false
  env := []
  powerOns := 0
  intWait := 0
  statusPicks := 0
  unwrittenShadows := allShadows

end Sys2Proof.Machine
end

