-- ==== Sys2Proof/Machine/Memory.lean ====
section
/-! DEFINITION. Sparse storage: lists of (address, value) with strictly rising addresses, and the two memories built on them,
data RAM (spec/10_state.md R48) and program memory (spec/20_memory.md R78). -/

namespace Sys2Proof.Machine

/-- The value listed at an address. -/
def cellRead {α : Type} : List (Nat × α) → Nat → Option α
  | [], _ => none
  | (k, v) :: rest, a => if a = k then some v else cellRead rest a

/-- List a value at an address, in its place. -/
def cellWrite {α : Type} : List (Nat × α) → Nat → α → List (Nat × α)
  | [], a, v => [(a, v)]
  | (k, u) :: rest, a, v =>
    if a < k then (a, v) :: (k, u) :: rest
    else if a = k then (a, v) :: rest
    else (k, u) :: cellWrite rest a v

/-- List nothing at an address. -/
def cellErase {α : Type} : List (Nat × α) → Nat → List (Nat × α)
  | [], _ => []
  | (k, u) :: rest, a => if a = k then rest else (k, u) :: cellErase rest a

/-- Addresses strictly rising. -/
abbrev cellsRising {α : Type} (m : List (Nat × α)) : Prop := (m.map Prod.fst).Pairwise (· < ·)

/-- The RAM byte at a key, if it has a value (R48, R51 `x`). -/
def Memory.read (m : Memory) (key : Nat) : Option Byte := cellRead m key

/-- Write a RAM byte (R48). -/
def Memory.write (m : Memory) (key : Nat) (v : Byte) : Memory := cellWrite m key v

/-- The canonical form of data memory. An unlisted byte has no value, so no listed byte equals what an unlisted one reads as. -/
abbrev Memory.wf (m : Memory) : Prop := cellsRising m

/-- The program word at an address (R53, R78); an unlisted word reads as erased flash (assumption log 18). -/
def Program.read (p : Program) (a : Nat) : InstrWord := (cellRead p a).getD erasedWord

/-- Place a program word: how a program is loaded from outside (R254, R263). No instruction does this (R78). -/
def Program.write (p : Program) (a : Nat) (w : InstrWord) : Program :=
  if w = erasedWord then cellErase p a else cellWrite p a w

/-- The canonical form of program memory: no listed word equals what an unlisted address reads as. -/
abbrev Program.wf (p : Program) : Prop := cellsRising p ∧ ∀ e ∈ p, e.2 ≠ erasedWord

end Sys2Proof.Machine
end

