-- ==== Sys2Proof/Machine/Ops.lean ====
section
/-! DEFINITION. The named operations over the registers: the moves of pc (spec/10_state.md R27), the views of STATUS, PCON,
INTCON and the stack registers (R34, R37, R38, R43), the return stack (R41, R42, R44), the device reset
(spec/70_reset_and_hazards.md R261), interrupt entry and the return from it (spec/60_exceptions.md R235, spec/45_control.md
R190). -/

namespace Sys2Proof.Machine

/-- What a step or a meaning answers. -/
abbrev Result := Host.Outcome State Fault Refusal

/-- The end of an instruction that did not write pc (R11, R27): `pc <- (pc + 1) mod 2^15`. -/
def State.advance (s : State) : State := { s with pc := s.pc + 1 }

/-- `skip` (R11, R150): `pc <- (pc + 2) mod 2^15`. -/
def State.skipNext (s : State) : State := { s with pc := s.pc + 2 }

/-- `pc <- t` (R11). -/
def State.setPc (s : State) (t : ProgAddr) : State := { s with pc := t }

/-- `W <- v` (R21). -/
def State.setW (s : State) (v : Byte) : State := { s with w := v }

/-- Write the flags of a Status Affected list (R36). -/
def State.setFlags (s : State) (f : FlagWrite) : State :=
  { s with c := f.c.getD s.c, dc := f.dc.getD s.dc, z := f.z.getD s.z }

/-- `FSR[n]` (R28). -/
def State.fsr (s : State) : FsrSel → Ptr
  | .fsr0 => s.fsr0
  | .fsr1 => s.fsr1

/-- `FSR[n] <- p` (R28). -/
def State.setFsr (s : State) (n : FsrSel) (p : Ptr) : State :=
  match n with
  | .fsr0 => { s with fsr0 := p }
  | .fsr1 => { s with fsr1 := p }

/-- The STATUS register as a byte (R34): `000 ++ nTO ++ nPD ++ Z ++ DC ++ C`. -/
def State.statusByte (s : State) : Byte :=
  0b000#3 ++ BitVec.ofBool s.nTO ++ BitVec.ofBool s.nPD ++ BitVec.ofBool s.z ++ BitVec.ofBool s.dc ++ BitVec.ofBool s.c

/-- A data write to STATUS (R35 (a)): only C, DC and Z are writable. -/
def State.setStatus (s : State) (v : Byte) : State :=
  { s with c := v.getLsbD 0, dc := v.getLsbD 1, z := v.getLsbD 2 }

/-- One flag after a write to STATUS that the spec leaves open: it takes the written bit or keeps its old value. -/
def pickFlag (takes written old : Bool) : Bool := if takes then written else old

/-- A data write to STATUS by an instruction that affects some but not all of C, DC, Z (R35 (c)): whether a flag takes the written
bit or keeps its old value is not settled, so a free value decides it (assumption log 8). The flags in the instruction's list are
then written over with the computed values. -/
def State.setStatusOpen (s : State) (v : Byte) : State :=
  let p := Config.statusBitsWritten s.statusPicks
  { s with
    statusPicks := s.statusPicks + 1
    c := pickFlag (p.getLsbD 0) (v.getLsbD 0) s.c
    dc := pickFlag (p.getLsbD 1) (v.getLsbD 1) s.dc
    z := pickFlag (p.getLsbD 2) (v.getLsbD 2) s.z }

/-- PCON as a byte (R38); bit 5 reads 0. -/
def Pcon.byte (p : Pcon) : Byte :=
  BitVec.ofBool p.stkovf ++ BitVec.ofBool p.stkunf ++ 0b0#1 ++ BitVec.ofBool p.nRWDT ++ BitVec.ofBool p.nRMCLR ++
    BitVec.ofBool p.nRI ++ BitVec.ofBool p.nPOR ++ BitVec.ofBool p.nBOR

/-- The PCON a software write of `v` leaves (R38, U18): every implemented bit is writable, bit 5 is dropped. -/
def pconOfByte (v : Byte) : Pcon where
  stkovf := v.getLsbD 7
  stkunf := v.getLsbD 6
  nRWDT := v.getLsbD 4
  nRMCLR := v.getLsbD 3
  nRI := v.getLsbD 2
  nPOR := v.getLsbD 1
  nBOR := v.getLsbD 0

/-- INTCON as a byte (R37, R50): `GIE ++ INTCON[6:0]`. -/
def State.intconByte (s : State) : Byte := BitVec.ofBool s.gie ++ s.intcon

/-- A software write to INTCON (R37, R50): IOCIF, bit 0, is read-only and keeps its value. -/
def State.setIntcon (s : State) (v : Byte) : State :=
  { s with gie := v.getLsbD 7, intcon := v.extractLsb' 1 6 ++ s.intcon.extractLsb' 0 1 }

/-- `IntReq` (R232). -/
def State.intReq (s : State) : Bool :=
  (s.intcon.getLsbD 2 && s.intcon.getLsbD 5) || (s.intcon.getLsbD 1 && s.intcon.getLsbD 4) ||
    (s.intcon.getLsbD 0 && s.intcon.getLsbD 3) || (s.intcon.getLsbD 6 && s.periphReq)

/-- STKPTR (R43): 0x1F when the stack is empty, else the number of entries less one. -/
def State.stkptr (s : State) : BitVec 5 := BitVec.ofNat 5 (s.stack.length + 31)

/-- The slot STKPTR points at, which TOSH:TOSL show (R43): TOS, or slot 15 when the stack is empty. -/
def State.tos (s : State) : ProgAddr := s.stack.headD s.slot15

/-- What stands before the numbers of the power-on column are written (R51, column "power-on"; R261): nothing has a value. RAM lists
nothing, and every register holds a free value of this power-on, `Config.powerOnBits` (assumption log 4 to 7). -/
def State.forgetAll (s : State) : State :=
  let n := s.powerOns + 1
  let free (register : Nat) : BitVec 16 := Config.powerOnBits n register
  { s with
    powerOns := n, ram := [], unwrittenShadows := allShadows
    pcon :=
      { stkovf := (free 8).getLsbD 7, stkunf := (free 8).getLsbD 6, nRWDT := (free 8).getLsbD 4, nRMCLR := (free 8).getLsbD 3
        nRI := (free 8).getLsbD 2, nPOR := (free 8).getLsbD 1, nBOR := (free 0).getLsbD 0 }
    slot15 := (free 1).setWidth 15, wShad := (free 2).setWidth 8, statusShad := (free 3).setWidth 3
    bsrShad := (free 4).setWidth 5, pclathShad := (free 5).setWidth 7, fsr0Shad := free 6, fsr1Shad := free 7
    w := (free 9).setWidth 8, c := (free 10).getLsbD 0, dc := (free 10).getLsbD 1, z := (free 10).getLsbD 2
    nPD := (free 10).getLsbD 3, nTO := (free 10).getLsbD 4, fsr0 := free 11, fsr1 := free 12, bsr := (free 13).setWidth 5
    pclath := (free 14).setWidth 7, gie := (free 15).getLsbD 7, intcon := (free 15).setWidth 7
    optionReg := (free 16).setWidth 8, trisA := (free 17).setWidth 8, trisB := (free 18).setWidth 8
    trisC := (free 19).setWidth 8 }

/-- PCON after a reset: an entry with a number is written, the others are kept (R51, R261). -/
def CauseEntries.pcon (e : CauseEntries) (p : Pcon) : Pcon where
  stkovf := e.stkovf.getD p.stkovf
  stkunf := e.stkunf.getD p.stkunf
  nRWDT := e.nRWDT.getD p.nRWDT
  nRMCLR := e.nRMCLR.getD p.nRMCLR
  nRI := e.nRI.getD p.nRI
  nPOR := e.nPOR.getD p.nPOR
  nBOR := e.nBOR.getD p.nBOR

/-- The column gives this shadow register a number (R51). -/
def givesShadow (col : ResetColumn) : ShadowReg → Bool
  | .status => col.statusShad.isSome
  | .wreg => col.wShad.isSome
  | .bsr => col.bsrShad.isSome
  | .pclath => col.pclathShad.isSome
  | .fsr0l => col.fsr0Shad.isSome
  | .fsr0h => col.fsr0Shad.isSome
  | .fsr1l => col.fsr1Shad.isSome
  | .fsr1h => col.fsr1Shad.isSome

/-- Write a column of the reset table and the entries of the cause (R51, R261): a number is written, what has none is kept. -/
def State.resetTo (s : State) (col : ResetColumn) (e : CauseEntries) : State :=
  { s with
    w := col.w.getD s.w, c := col.c.getD s.c, dc := col.dc.getD s.dc, z := col.z.getD s.z
    fsr0 := col.fsr0.getD s.fsr0, fsr1 := col.fsr1.getD s.fsr1, bsr := col.bsr.getD s.bsr, pclath := col.pclath.getD s.pclath
    gie := col.gie.getD s.gie, intcon := col.intcon.getD s.intcon, optionReg := col.optionReg.getD s.optionReg
    trisA := col.trisA.getD s.trisA, trisB := col.trisB.getD s.trisB, trisC := col.trisC.getD s.trisC
    stack := col.stack, slot15 := col.slot15.getD s.slot15, wdt := col.wdt, wdtPre := col.wdtPre, sleeping := col.sleeping
    wShad := col.wShad.getD s.wShad, statusShad := col.statusShad.getD s.statusShad, bsrShad := col.bsrShad.getD s.bsrShad
    pclathShad := col.pclathShad.getD s.pclathShad, fsr0Shad := col.fsr0Shad.getD s.fsr0Shad
    fsr1Shad := col.fsr1Shad.getD s.fsr1Shad, unwrittenShadows := s.unwrittenShadows.filter fun r => !givesShadow col r
    nTO := e.nTO.getD s.nTO, nPD := e.nPD.getD s.nPD, pcon := CauseEntries.pcon e s.pcon
    pc := s.cfg.resetVector, intWait := 0 }

/-- The cause-dependent entries of a reset (R51 `q`, R261 "case kind of"); MCLR asks whether the processor is asleep. -/
def State.causeEntries (s : State) : ResetKind → CauseEntries
  | .powerOn => s.cfg.resetValues.causePowerOn
  | .brownOut => s.cfg.resetValues.causeBrownOut
  | .mclr => if s.sleeping then s.cfg.resetValues.causeMclrAsleep else s.cfg.resetValues.causeMclrAwake
  | .watchdog => s.cfg.resetValues.causeWatchdog
  | .resetInstruction => s.cfg.resetValues.causeResetInstruction
  | .stackOverflow => s.cfg.resetValues.causeStackOverflow
  | .stackUnderflow => s.cfg.resetValues.causeStackUnderflow

/-- `Reset(kind)` (R261): by the table `ResetValues` of the configuration. The row of GPR has no number: RAM has no value after a
power-on and is kept by every other reset (R51). So does a byte to which SfrModel gives a meaning, which stands in the same memory: what
a reset does to a peripheral register is out of scope in R51 and R261, and THE MODEL'S CHOICE here (assumption log 16). -/
def deviceReset (k : ResetKind) (s : State) : State :=
  if k = .powerOn then s.forgetAll.resetTo s.cfg.resetValues.powerOn (s.causeEntries k)
  else s.resetTo s.cfg.resetValues.others (s.causeEntries k)

/-- The reset kind of an external reset (R230 (e)). -/
def ExtReset.kind : ExtReset → ResetKind
  | .powerOn => .powerOn
  | .mclr => .mclr
  | .brownOut => .brownOut

/-- `Push(v)` (R41, R43). On a full stack (R44) the rest of the rule is not carried out: the device resets if STVREN, else the
model refuses. -/
def push (v : ProgAddr) (s : State) : Except Result State :=
  if s.stack.length < s.cfg.stackDepth then
    .ok { s with stack := v :: s.stack, slot15 := if s.stack.length = 15 then v else s.slot15 }
  else if s.cfg.stvren then .error (.next (deviceReset .stackOverflow s))
  else .error (.refused .stackOverflowUnguarded)

/-- `Pop()` (R42): the newest entry, and the state without it. On an empty stack (R44) the rest of the rule is not carried out:
the device resets if STVREN, else the model refuses. -/
def pop (s : State) : Except Result (ProgAddr × State) :=
  match s.stack with
  | v :: rest => .ok (v, { s with stack := rest })
  | [] =>
    if s.cfg.stvren then .error (.next (deviceReset .stackUnderflow s))
    else .error (.refused .stackUnderflowUnguarded)

/-- `STATUS_SHAD[2:0] <- Z ++ DC ++ C` (R235). -/
def State.statusForShadow (s : State) : BitVec 3 := BitVec.ofBool s.z ++ BitVec.ofBool s.dc ++ BitVec.ofBool s.c

/-- The context save of interrupt entry (R47, R235), if AUTO_CONTEXT. -/
def State.saveContext (s : State) : State :=
  if s.cfg.autoContext then
    { s with
      wShad := s.w, statusShad := s.statusForShadow, bsrShad := s.bsr, pclathShad := s.pclath
      fsr0Shad := s.fsr0, fsr1Shad := s.fsr1, unwrittenShadows := [] }
  else s

/-- The context restore of RETFIE (R47, R190), if AUTO_CONTEXT; nTO and nPD are not restored. -/
def State.restoreContext (s : State) : State :=
  if s.cfg.autoContext then
    { s with
      w := s.wShad, c := s.statusShad.getLsbD 0, dc := s.statusShad.getLsbD 1, z := s.statusShad.getLsbD 2
      bsr := s.bsrShad, pclath := s.pclathShad, fsr0 := s.fsr0Shad, fsr1 := s.fsr1Shad }
  else s

/-- TAKING AN INTERRUPT (R235): push pc, save the context, clear GIE, go to the vector. An overflow of the push ends it (R44). -/
def interruptEntry (s : State) : Except Result State :=
  match push s.pc s with
  | .ok t => .ok { t.saveContext with gie := false, pc := t.cfg.intVector }
  | .error r => .error r

/-- R190's refusal: RETFIE would restore from a shadow register to which neither an interrupt entry nor software has given a value since
power-on, and the configuration has the spec's treatment of that (R182, R190, D21, U11; R11 for what `refuse` means; assumption
log 5). -/
def State.restoreRefused (s : State) : Bool :=
  s.cfg.autoContext && s.cfg.unknownShadows == .refuse && !s.unwrittenShadows.isEmpty

/-- RETURNING FROM AN INTERRUPT (R190): pop into pc, set GIE, restore the context. An underflow of the pop ends it (R44), and so does
the refusal of R190. -/
def interruptReturn (s : State) : Result :=
  match pop s with
  | .ok (v, t) =>
    if s.restoreRefused then .refused .unknownShadowRegisters
    else .next ({ t with pc := v, gie := true } : State).restoreContext
  | .error r => r

end Sys2Proof.Machine
end

