-- ==== Sys2Proof/Machine/Operands.lean ====
section
/-! DEFINITION. Every operand form: where a file operand, an FSR value or a data address points (spec/20_memory.md R61 to R77),
reading and writing there (spec/10_state.md R35, R50, R54; R65 to R67, R77), fetching (R17, R78), and the shapes the families of
instructions share (spec/00_scope.md R12, R13). -/

namespace Sys2Proof.Machine

/-- What a data address or an FSR value selects: the effective address of R13, computed once and used for both the read and the
write of an instruction. -/
inductive Loc where
  /-- A core register (R50). INDF0 and INDF1 are reached only through an FSR pointing at them (R73, R74). -/
  | core (r : CoreReg)
  | trisA
  | trisB
  | trisC
  | optionReg
  | pcon
  | shadow (r : ShadowReg)
  | stkptr
  | tosl
  | tosh
  /-- A RAM byte: banked GPR at its data address, common RAM at its offset 0x70..0x7F (R68, R69). -/
  | ram (key : Nat)
  /-- The low byte of a program word, through an FSR (R77). -/
  | programByte (a : ProgAddr)
  /-- An unimplemented data location (R67). -/
  | unimplemented
deriving DecidableEq, Repr

/-- The core register at an offset of every bank, by `CoreRegMap` (R50, D3). -/
def coreAt (p : Params) (off : Nat) : Option CoreReg := if off < 12 then p.coreRegMap[off]? else none

/-- The special function registers the spec models outside the core block, with their data addresses (R66). -/
def sfrMap : List (DataAddr × Loc) :=
  [(0x08C#12, .trisA), (0x08D#12, .trisB), (0x08E#12, .trisC), (0x095#12, .optionReg), (0x096#12, .pcon),
    (0xFE4#12, .shadow .status), (0xFE5#12, .shadow .wreg), (0xFE6#12, .shadow .bsr), (0xFE7#12, .shadow .pclath),
    (0xFE8#12, .shadow .fsr0l), (0xFE9#12, .shadow .fsr0h), (0xFEA#12, .shadow .fsr1l), (0xFEB#12, .shadow .fsr1h),
    (0xFED#12, .stkptr), (0xFEE#12, .tosl), (0xFEF#12, .tosh)]

/-- A special function register address: a modelled register, a byte of storage where `SfrModel` gives it that meaning, or a refusal
(R66; assumption log 16). -/
def sfrLoc (p : Params) (a : DataAddr) : Except Refusal Loc :=
  match sfrMap.lookup a with
  | some l => .ok l
  | none => if p.sfrModel.contains a then .ok (.ram a.toNat) else .error (.peripheralSfr a)

/-- The special function register addresses by bank and offset (R65, R66): offsets 0x0C..0x1F of every bank, all offsets below 0x70
of bank 31, offsets 0x20..0x2F of bank 30. The core registers and common RAM are taken out before (`dataLoc`). -/
def inSfrWindow (bank off : Nat) : Bool := decide (off ≤ 0x1F) || bank == 31 || (bank == 30 && decide (off ≤ 0x2F))

/-- The address holds banked general purpose RAM (R68 `GPR_MAP`). -/
def hasGpr (p : Params) (a : Nat) : Bool := p.gprMap.any fun r => decide (r.lo ≤ a) && decide (a ≤ r.hi)

/-- The dispatch of `MemRead` and `MemWrite` on the region of a 12-bit data address (R62, R65). A bank that the configuration does not
have has no meaning (R6 `NBANKS`; with its default every bank is there). -/
def dataLoc (p : Params) (a : DataAddr) : Except Refusal Loc :=
  let bank := a.toNat / 128
  let off := a.toNat % 128
  if p.nbanks ≤ bank then .error (.bankOutsideMemory a)
  else if 0x70 ≤ off then .ok (.ram off)
  else
    match coreAt p off with
    | some r => .ok (.core r)
    | none =>
      if inSfrWindow bank off then sfrLoc p a
      else if hasGpr p a.toNat then .ok (.ram a.toNat)
      else .ok .unimplemented

/-- `Linear(p)` (R76). -/
def linearAddr (p : Ptr) : DataAddr :=
  let i := p.toNat - 0x2000
  BitVec.ofNat 12 (i / 80 * 128 + (0x20 + i % 80))

/-- The cell of FSR space that a pointer selects (R73 to R77). -/
def indLoc (c : Params) (p : Ptr) : Except Refusal Loc :=
  if p.getLsbD 15 then .ok (.programByte (p.extractLsb' 0 15))
  else if p.toNat ≤ 0x0FFF then dataLoc c (p.extractLsb' 0 12)
  else if 0x2000 ≤ p.toNat ∧ p.toNat ≤ 0x29AF then dataLoc c (linearAddr p)
  else .error (.reservedFsrAddress p)

/-- `FileAddr(f) = BSR ++ f` (R61). -/
def State.fileAddr (s : State) (f : FileAddr) : DataAddr := s.bsr ++ f

/-- The pointer through which a file operand is redirected: that of INDFn where `CoreRegMap` has INDFn at its offset (R29, R63). -/
def State.indfPointer (s : State) (f : FileAddr) : Option Ptr :=
  match coreAt s.cfg f.toNat with
  | some .indf0 => some s.fsr0
  | some .indf1 => some s.fsr1
  | _ => none

/-- What a file operand selects (R63, R64): INDF0 and INDF1 go through their FSR. -/
def fileLoc (s : State) (f : FileAddr) : Except Refusal Loc :=
  match s.indfPointer f with
  | some p => indLoc s.cfg p
  | none => dataLoc s.cfg (s.fileAddr f)

/-- Reading a core register (R50). The instruction reading PCL stands at `pc` (R54). -/
def readCore (s : State) : CoreReg → Byte
  | .indf0 => 0
  | .indf1 => 0
  | .pcl => (s.pc + 1).extractLsb' 0 8
  | .status => s.statusByte
  | .fsr0l => s.fsr0.extractLsb' 0 8
  | .fsr0h => s.fsr0.extractLsb' 8 8
  | .fsr1l => s.fsr1.extractLsb' 0 8
  | .fsr1h => s.fsr1.extractLsb' 8 8
  | .bsr => 0b000#3 ++ s.bsr
  | .wreg => s.w
  | .pclath => 0b0#1 ++ s.pclath
  | .intcon => s.intconByte

/-- Reading a shadow register (R47); absent bits read 0 (assumption log 23). -/
def readShadow (s : State) : ShadowReg → Byte
  | .status => 0b00000#5 ++ s.statusShad
  | .wreg => s.wShad
  | .bsr => 0b000#3 ++ s.bsrShad
  | .pclath => 0b0#1 ++ s.pclathShad
  | .fsr0l => s.fsr0Shad.extractLsb' 0 8
  | .fsr0h => s.fsr0Shad.extractLsb' 8 8
  | .fsr1l => s.fsr1Shad.extractLsb' 0 8
  | .fsr1h => s.fsr1Shad.extractLsb' 8 8

/-- A TRIS register as a file read shows it (R40 `TRIS_MASKS`). -/
def trisRead (m : TrisMask) (stored : Byte) : Byte := (stored &&& m.implemented) ||| m.readsOne

/-- A RAM byte (R48): the last byte written, or the free value of this power-on (assumption log 4). -/
def State.ramByte (s : State) (key : Nat) : Byte := (s.ram.read key).getD (Config.powerOnByte s.powerOns key)

/-- Reading a location (R40, R43, R47, R50, R65 to R67, R77). Reads have no side effect (R86). -/
def readLoc (s : State) : Loc → Except Refusal Byte
  | .core r => .ok (readCore s r)
  | .trisA => .ok (trisRead s.cfg.trisAMask s.trisA)
  | .trisB => .ok (trisRead s.cfg.trisBMask s.trisB)
  | .trisC => .ok (trisRead s.cfg.trisCMask s.trisC)
  | .optionReg => .ok s.optionReg
  | .pcon => .ok s.pcon.byte
  | .shadow r => .ok (readShadow s r)
  | .stkptr => .ok (0b000#3 ++ s.stkptr)
  | .tosl => .ok (s.tos.extractLsb' 0 8)
  | .tosh => .ok (0b0#1 ++ s.tos.extractLsb' 8 7)
  | .ram key => .ok (s.ramByte key)
  | .programByte a =>
    if a.toNat < s.cfg.pmWords then .ok ((s.prog.read a.toNat).extractLsb' 0 8) else .error (.readOutsideProgram a)
  | .unimplemented => .ok 0

/-- Writing a core register (R50), by an instruction that affects the flags `k` (R35 decides STATUS). A write to PCL goes to
`PCLATH ++ v` (R54); `s` is a state whose pc has already been moved on, so that the write stands. -/
def writeCore (s : State) (k : FlagKind) (v : Byte) : CoreReg → Except Refusal State
  | .indf0 => .ok s
  | .indf1 => .ok s
  | .pcl => .ok { s with pc := s.pclath ++ v }
  | .status =>
    match k with
    | .noFlags => .ok (s.setStatus v)
    | .someFlags => .ok (s.setStatusOpen v)
    | .allFlags => .ok s
  | .fsr0l => .ok { s with fsr0 := s.fsr0.extractLsb' 8 8 ++ v }
  | .fsr0h => .ok { s with fsr0 := v ++ s.fsr0.extractLsb' 0 8 }
  | .fsr1l => .ok { s with fsr1 := s.fsr1.extractLsb' 8 8 ++ v }
  | .fsr1h => .ok { s with fsr1 := v ++ s.fsr1.extractLsb' 0 8 }
  | .bsr => .ok { s with bsr := v.extractLsb' 0 5 }
  | .wreg => .ok { s with w := v }
  | .pclath => .ok { s with pclath := v.extractLsb' 0 7 }
  | .intcon => .ok (s.setIntcon v)

/-- The shadow register's byte (R47); absent bits are dropped (assumption log 23). -/
def setShadow (s : State) (v : Byte) : ShadowReg → State
  | .status => { s with statusShad := v.extractLsb' 0 3 }
  | .wreg => { s with wShad := v }
  | .bsr => { s with bsrShad := v.extractLsb' 0 5 }
  | .pclath => { s with pclathShad := v.extractLsb' 0 7 }
  | .fsr0l => { s with fsr0Shad := s.fsr0Shad.extractLsb' 8 8 ++ v }
  | .fsr0h => { s with fsr0Shad := v ++ s.fsr0Shad.extractLsb' 0 8 }
  | .fsr1l => { s with fsr1Shad := s.fsr1Shad.extractLsb' 8 8 ++ v }
  | .fsr1h => { s with fsr1Shad := v ++ s.fsr1Shad.extractLsb' 0 8 }

/-- Writing a shadow register (R47): from then on it holds a value (R190; assumption log 5). -/
def writeShadow (s : State) (v : Byte) (r : ShadowReg) : State :=
  { setShadow s v r with unwrittenShadows := s.unwrittenShadows.filter (· ≠ r) }

/-- Writing a location (R38 to R40, R43, R47, R50, R65 to R67, R77): program memory and unimplemented locations ignore the write,
the stack registers refuse it (U9). -/
def writeLoc (s : State) (l : Loc) (k : FlagKind) (v : Byte) : Except Refusal State :=
  match l with
  | .core r => writeCore s k v r
  | .trisA => .ok { s with trisA := v }
  | .trisB => .ok { s with trisB := v }
  | .trisC => .ok { s with trisC := v }
  | .optionReg => .ok { s with optionReg := v }
  | .pcon => .ok { s with pcon := pconOfByte v }
  | .shadow r => .ok (writeShadow s v r)
  | .stkptr => .error .stackRegisterWrite
  | .tosl => .error .stackRegisterWrite
  | .tosh => .error .stackRegisterWrite
  | .ram key => .ok { s with ram := s.ram.write key v }
  | .programByte _ => .ok s
  | .unimplemented => .ok s

/-- `FRead(f)` (R63). -/
def fread (s : State) (f : FileAddr) : Except Refusal Byte :=
  match fileLoc s f with
  | .ok l => readLoc s l
  | .error e => .error e

/-- `IndRead(p)` (R73). -/
def indRead (s : State) (p : Ptr) : Except Refusal Byte :=
  match indLoc s.cfg p with
  | .ok l => readLoc s l
  | .error e => .error e

/-- `MemRead(a, 1)` (R65). -/
def memRead (s : State) (a : DataAddr) : Except Refusal Byte :=
  match dataLoc s.cfg a with
  | .ok l => readLoc s l
  | .error e => .error e

/-- `FWrite(f, v)` (R64) by an instruction that affects the flags `k`: the address comes from the state `s` before the instruction
(R13), the write is done on `next`, whose pc is already moved on. -/
def fwrite (s next : State) (f : FileAddr) (k : FlagKind) (v : Byte) : Except Refusal State :=
  match fileLoc s f with
  | .ok l => writeLoc next l k v
  | .error e => .error e

/-- `IndWrite(p, v)` (R74), with `k` and `next` as for `fwrite`. -/
def indWrite (next : State) (p : Ptr) (k : FlagKind) (v : Byte) : Except Refusal State :=
  match indLoc next.cfg p with
  | .ok l => writeLoc next l k v
  | .error e => .error e

/-- `MemWrite(a, 1, v)` (R65), with `k` and `next` as for `fwrite`. -/
def memWrite (next : State) (a : DataAddr) (k : FlagKind) (v : Byte) : Except Refusal State :=
  match dataLoc next.cfg a with
  | .ok l => writeLoc next l k v
  | .error e => .error e

/-- `PMRead(a)` of a fetch (R78). -/
def pmRead (s : State) (a : ProgAddr) : Except Refusal InstrWord :=
  if a.toNat < s.cfg.pmWords then .ok (s.prog.read a.toNat) else .error (.fetchOutsideProgram a)

/-- The fetch and decode of R17: the instruction at pc, or the refusal of R78 or R108. -/
def fetch (s : State) : Except Refusal Instr :=
  match pmRead s s.pc with
  | .ok w =>
    match decode w with
    | .ok i => .ok i
    | .error _ =>
      match s.cfg.reservedOpcode with
      | .refuse => .error (.reservedOpcode w)
  | .error e => .error e

/-- `Dest(f, d) <- r` with the flags of the result (R12, R120), on the state `next` whose pc is already moved on. -/
def writeBack (s next : State) (f : FileAddr) (d : Dest) (r : AluResult) : Result :=
  match d with
  | .w => .next ((next.setW r.value).setFlags r.flags)
  | .f =>
    match fwrite s next f r.flags.kind r.value with
    | .ok t => .next (t.setFlags r.flags)
    | .error e => .refused e

/-- The shape of the `f, d` instructions (R120): read the operand, compute, write the destination. -/
def byteOp (f : FileAddr) (d : Dest) (alu : Byte → AluResult) (s : State) : Result :=
  match fread s f with
  | .error e => .refused e
  | .ok v => writeBack s s.advance f d (alu v)

/-- The shape of CLRF and MOVWF (R131, R138): a write that reads nothing first (D16). -/
def storeOp (f : FileAddr) (r : AluResult) (s : State) : Result := writeBack s s.advance f .f r

/-- The file operand selects PCL (R54), directly or through INDFn. -/
def selectsPcl (s : State) (f : FileAddr) : Bool := (fileLoc s f).toOption == some (.core .pcl)

/-- The shape of DECFSZ and INCFSZ (R150 to R152): the skip is decided by the result; a result bound for PCL is refused (R54). -/
def skipOp (f : FileAddr) (d : Dest) (g : Byte → Byte) (s : State) : Result :=
  match fread s f with
  | .error e => .refused e
  | .ok v =>
    if d == .f && selectsPcl s f then .refused .skipWritesPcl
    else writeBack s (if g v = 0 then s.skipNext else s.advance) f d (plainResult (g v))

/-- The shape of BTFSC and BTFSS (R160 to R162): skip when bit `b` has the wanted value; nothing but pc is written. -/
def bitSkipOp (f : FileAddr) (b : BitVec 3) (wanted : Bool) (s : State) : Result :=
  match fread s f with
  | .error e => .refused e
  | .ok v => .next (if bitOf v b = wanted then s.skipNext else s.advance)

/-- The literal operations on W (R165). -/
def literalOp (r : AluResult) (s : State) : Result := .next ((s.advance.setW r.value).setFlags r.flags)

/-- The pointer an `mm` form leaves in the FSR (R102, R213). -/
def modeStepped (mm : FsrMode) (p : Ptr) : Ptr :=
  match mm with
  | .preInc => p + 1
  | .preDec => p - 1
  | .postInc => p + 1
  | .postDec => p - 1

/-- The effective address of an `mm` form (R213): the modified pointer before the access, the old one after it. -/
def modeAddress (mm : FsrMode) (p : Ptr) : Ptr :=
  match mm with
  | .preInc => p + 1
  | .preDec => p - 1
  | .postInc => p
  | .postDec => p

/-- The effective address of a `k[n]` form (R214, R216): wraps modulo 2^16 (R210). -/
def indexedAddress (p : Ptr) (k : Int) : Ptr := p + BitVec.ofInt 16 k

/-- The location is a byte of FSR[n] (R217). -/
def isFsrByte (n : FsrSel) (l : Loc) : Bool :=
  match n with
  | .fsr0 => l == .core .fsr0l || l == .core .fsr0h
  | .fsr1 => l == .core .fsr1l || l == .core .fsr1h

/-- An effective address that selects FSRnL or FSRnH of the same `n` (R217). -/
def addressesOwnFsr (c : Params) (n : FsrSel) (ea : Ptr) : Bool := (indLoc c ea).toOption.any (isFsrByte n)

/-- `W <- IndRead(ea); Z <- (W = 0)` (R213, R214), on the state `next` whose pc is already moved on. -/
def loadIndirect (s next : State) (ea : Ptr) : Result :=
  match indRead s ea with
  | .error e => .refused e
  | .ok v => .next ((next.setW v).setFlags (zResult v).flags)

end Sys2Proof.Machine
end

