-- ==== Sys2Proof/Machine/BitOps.lean ====
section
/-! DEFINITION. Bit-oriented file register operations (spec/42_bit_oriented.md R155 to R157): the whole byte is read and written. -/

namespace Sys2Proof.Machine

/-- BCF, "Bit Clear f" (R156). -/
def execBcf (f : FileAddr) (b : BitVec 3) (s : State) : Result :=
  byteOp f .f (fun v => plainResult (v &&& ~~~bitMask b)) s

/-- BSF, "Bit Set f" (R157). -/
def execBsf (f : FileAddr) (b : BitVec 3) (s : State) : Result :=
  byteOp f .f (fun v => plainResult (v ||| bitMask b)) s

end Sys2Proof.Machine
end

