-- ==== Sys2Proof/Machine/BitSkip.lean ====
section
/-! DEFINITION. Bit-oriented skip operations (spec/43_bit_skip.md R160 to R162). -/

namespace Sys2Proof.Machine

/-- BTFSC, "Bit Test f, Skip if Clear" (R161). -/
def execBtfsc (f : FileAddr) (b : BitVec 3) (s : State) : Result := bitSkipOp f b false s

/-- BTFSS, "Bit Test f, Skip if Set" (R162, C5). -/
def execBtfss (f : FileAddr) (b : BitVec 3) (s : State) : Result := bitSkipOp f b true s

end Sys2Proof.Machine
end

