-- ==== Sys2Proof/Machine/ByteOps.lean ====
section
/-! DEFINITION. Byte-oriented file register operations (spec/40_byte_oriented.md R125 to R144). -/

namespace Sys2Proof.Machine

/-- ADDWF, "Add W and f" (R125). -/
def execAddwf (f : FileAddr) (d : Dest) (s : State) : Result := byteOp f d (fun v => add8 s.w v false) s

/-- ADDWFC, "ADD W and CARRY bit to f" (R126): C is read before it is written. -/
def execAddwfc (f : FileAddr) (d : Dest) (s : State) : Result := byteOp f d (fun v => add8 s.w v s.c) s

/-- ANDWF, "AND W with f" (R127). -/
def execAndwf (f : FileAddr) (d : Dest) (s : State) : Result := byteOp f d (fun v => zResult (s.w &&& v)) s

/-- ASRF, "Arithmetic Right Shift" (R128). -/
def execAsrf (f : FileAddr) (d : Dest) (s : State) : Result := byteOp f d (fun v => asr8 v) s

/-- LSLF, "Logical Left Shift" (R129). -/
def execLslf (f : FileAddr) (d : Dest) (s : State) : Result := byteOp f d (fun v => lsl8 v) s

/-- LSRF, "Logical Right Shift" (R130). -/
def execLsrf (f : FileAddr) (d : Dest) (s : State) : Result := byteOp f d (fun v => lsr8 v) s

/-- CLRF, "Clear f" (R131): Z is 1, the value written being 0. -/
def execClrf (f : FileAddr) (s : State) : Result := storeOp f (zResult 0) s

/-- CLRW, "Clear W" (R132); the don't-care bits have no effect (R104). -/
def execClrw (_x : BitVec 2) (s : State) : Result := literalOp (zResult 0) s

/-- COMF, "Complement f" (R133). -/
def execComf (f : FileAddr) (d : Dest) (s : State) : Result := byteOp f d (fun v => zResult (~~~v)) s

/-- DECF, "Decrement f" (R134). -/
def execDecf (f : FileAddr) (d : Dest) (s : State) : Result := byteOp f d (fun v => zResult (v - 1)) s

/-- INCF, "Increment f" (R135). -/
def execIncf (f : FileAddr) (d : Dest) (s : State) : Result := byteOp f d (fun v => zResult (v + 1)) s

/-- IORWF, "Inclusive OR W with f" (R136). -/
def execIorwf (f : FileAddr) (d : Dest) (s : State) : Result := byteOp f d (fun v => zResult (s.w ||| v)) s

/-- MOVF, "Move f" (R137). -/
def execMovf (f : FileAddr) (d : Dest) (s : State) : Result := byteOp f d (fun v => zResult v) s

/-- MOVWF, "Move W to f" (R138): no read of f, no flag. -/
def execMovwf (f : FileAddr) (s : State) : Result := storeOp f (plainResult s.w) s

/-- RLF, "Rotate Left f through Carry" (R139). -/
def execRlf (f : FileAddr) (d : Dest) (s : State) : Result := byteOp f d (fun v => rl8 v s.c) s

/-- RRF, "Rotate Right f through Carry" (R140). -/
def execRrf (f : FileAddr) (d : Dest) (s : State) : Result := byteOp f d (fun v => rr8 v s.c) s

/-- SUBWF, "Subtract W from f" (R141). -/
def execSubwf (f : FileAddr) (d : Dest) (s : State) : Result := byteOp f d (fun v => sub8 v s.w true) s

/-- SUBWFB, "Subtract W from f with Borrow" (R142, C9): C is read before it is written. -/
def execSubwfb (f : FileAddr) (d : Dest) (s : State) : Result := byteOp f d (fun v => sub8 v s.w s.c) s

/-- SWAPF, "Swap Nibbles in f" (R143): no flag. -/
def execSwapf (f : FileAddr) (d : Dest) (s : State) : Result := byteOp f d (fun v => plainResult (swapNibbles v)) s

/-- XORWF, "Exclusive OR W with f" (R144). -/
def execXorwf (f : FileAddr) (d : Dest) (s : State) : Result := byteOp f d (fun v => zResult (s.w ^^^ v)) s

end Sys2Proof.Machine
end

