-- ==== Sys2Proof/Machine/ByteSkip.lean ====
section
/-! DEFINITION. Byte-oriented skip operations (spec/41_byte_skip.md R150 to R152). -/

namespace Sys2Proof.Machine

/-- DECFSZ, "Decrement f, Skip if 0" (R151, C8): no flag. -/
def execDecfsz (f : FileAddr) (d : Dest) (s : State) : Result := skipOp f d (fun v => v - 1) s

/-- INCFSZ, "Increment f, Skip if 0" (R152, C8): no flag. -/
def execIncfsz (f : FileAddr) (d : Dest) (s : State) : Result := skipOp f d (fun v => v + 1) s

end Sys2Proof.Machine
end

