-- ==== Sys2Proof/Machine/Control.lean ====
section
/-! DEFINITION. Control operations (spec/45_control.md R180 to R190). -/

namespace Sys2Proof.Machine

/-- The target of BRA (R100, R183): `(pc + 1 + sext_15(k)) mod 2^15`. -/
def braTarget (s : State) (k : Int) : ProgAddr := s.pc + 1 + BitVec.ofInt 15 k

/-- The target of BRW (R184, C7): `(pc + 1 + zext_15(W)) mod 2^15`. -/
def brwTarget (s : State) : ProgAddr := s.pc + 1 + s.w.setWidth 15

/-- The target of CALL and GOTO (R99, R185, R187, C6): `PCLATH[6:3] ++ k`. -/
def pageTarget (s : State) (k : BitVec 11) : ProgAddr := s.pclath.extractLsb' 3 4 ++ k

/-- The target of CALLW (R186): `PCLATH[6:0] ++ W`. -/
def callwTarget (s : State) : ProgAddr := s.pclath ++ s.w

/-- Push the return address, then go to the target (R181). -/
def callTo (t : ProgAddr) (s : State) : Result :=
  match push (s.pc + 1) s with
  | .ok u => .next (u.setPc t)
  | .error r => r

/-- `pc <- Pop()` (R181). -/
def returnFrom (s : State) : Result :=
  match pop s with
  | .ok (v, u) => .next (u.setPc v)
  | .error r => r

/-- BRA, "Relative Branch" (R183). -/
def execBra (k : Int) (s : State) : Result := .next (s.setPc (braTarget s k))

/-- BRW, "Relative Branch with W" (R184). -/
def execBrw (s : State) : Result := .next (s.setPc (brwTarget s))

/-- CALL, "Call Subroutine" (R185). -/
def execCall (k : BitVec 11) (s : State) : Result := callTo (pageTarget s k) s

/-- CALLW, "Subroutine Call With W" (R186). -/
def execCallw (s : State) : Result := callTo (callwTarget s) s

/-- GOTO, "Unconditional Branch" (R187). -/
def execGoto (k : BitVec 11) (s : State) : Result := .next (s.setPc (pageTarget s k))

/-- RETFIE, "Return from Interrupt" (R190, C2). -/
def execRetfie (s : State) : Result := interruptReturn s

/-- RETLW, "Return with literal in W" (R189): W is written before the pop (D16, U16). -/
def execRetlw (k : Byte) (s : State) : Result := returnFrom (s.setW k)

/-- RETURN, "Return from Subroutine" (R188). -/
def execReturn (s : State) : Result := returnFrom s

end Sys2Proof.Machine
end

