-- ==== Sys2Proof/Machine/FsrOps.lean ====
section
/-! DEFINITION. C-compiler optimized operations (spec/47_c_compiler_optimized.md R210 to R217). -/

namespace Sys2Proof.Machine

/-- ADDFSR, "Add Literal to FSRn" (R212): no flag, no access. -/
def execAddfsr (n : FsrSel) (k : Int) (s : State) : Result := .next (s.advance.setFsr n (indexedAddress (s.fsr n) k))

/-- MOVIW with modifier (R213); an effective address on a byte of the FSR it modifies is refused (R217). -/
def execMoviwMode (n : FsrSel) (mm : FsrMode) (s : State) : Result :=
  if addressesOwnFsr s.cfg n (modeAddress mm (s.fsr n)) then .refused .modifiesOwnFsr
  else loadIndirect s (s.advance.setFsr n (modeStepped mm (s.fsr n))) (modeAddress mm (s.fsr n))

/-- MOVIW indexed (R214): the pointer is unchanged. -/
def execMoviwIndexed (n : FsrSel) (k : Int) (s : State) : Result :=
  loadIndirect s s.advance (indexedAddress (s.fsr n) k)

/-- MOVWI with modifier (R215): no flag; an effective address on a byte of the FSR it modifies is refused (R217). -/
def execMovwiMode (n : FsrSel) (mm : FsrMode) (s : State) : Result :=
  if addressesOwnFsr s.cfg n (modeAddress mm (s.fsr n)) then .refused .modifiesOwnFsr
  else
    match indWrite s.advance (modeAddress mm (s.fsr n)) .noFlags s.w with
    | .error e => .refused e
    | .ok t => .next (t.setFsr n (modeStepped mm (s.fsr n)))

/-- MOVWI indexed (R216): no flag; the pointer is unchanged. -/
def execMovwiIndexed (n : FsrSel) (k : Int) (s : State) : Result :=
  match indWrite s.advance (indexedAddress (s.fsr n) k) .noFlags s.w with
  | .error e => .refused e
  | .ok t => .next t

end Sys2Proof.Machine
end

