-- ==== Sys2Proof/Machine/Inherent.lean ====
section
/-! DEFINITION. Inherent operations (spec/46_inherent.md R195 to R201). -/

namespace Sys2Proof.Machine

/-- CLRWDT, "Clear Watchdog Timer" (R196). -/
def execClrwdt (s : State) : Result :=
  .next { s.advance with wdt := 0, wdtPre := 0, nTO := true, nPD := true }

/-- NOP, "No Operation" (R197). -/
def execNop (s : State) : Result := .next s.advance

/-- OPTION, "Load OPTION_REG Register with W" (R198): whatever BSR holds (R195). -/
def execOption (s : State) : Result := .next { s.advance with optionReg := s.w }

/-- RESET, "Software Reset" (R199, C3): nRI becomes 0 and the device resets. -/
def execReset (s : State) : Result := .next (deviceReset .resetInstruction s)

/-- SLEEP, "Enter Sleep mode" (R200, C3); with an enabled request pending it executes as a NOP (U10). -/
def execSleep (s : State) : Result :=
  if s.intReq then .next s.advance
  else .next { s.advance with wdt := 0, wdtPre := 0, nTO := true, nPD := false, sleeping := true }

/-- TRIS 5, "Load TRIS Register with W" (R201): TRISA. -/
def execTris5 (s : State) : Result := .next { s.advance with trisA := s.w }

/-- TRIS 6 (R201): TRISB. -/
def execTris6 (s : State) : Result := .next { s.advance with trisB := s.w }

/-- TRIS 7 (R201): TRISC. -/
def execTris7 (s : State) : Result := .next { s.advance with trisC := s.w }

end Sys2Proof.Machine
end

