-- ==== Sys2Proof/Machine/Literal.lean ====
section
/-! DEFINITION. Literal operations (spec/44_literal.md R165 to R173). -/

namespace Sys2Proof.Machine

/-- ADDLW, "Add literal and W" (R166). -/
def execAddlw (k : Byte) (s : State) : Result := literalOp (add8 s.w k false) s

/-- ANDLW, "AND literal with W" (R167). -/
def execAndlw (k : Byte) (s : State) : Result := literalOp (zResult (s.w &&& k)) s

/-- IORLW, "Inclusive OR literal with W" (R168). -/
def execIorlw (k : Byte) (s : State) : Result := literalOp (zResult (s.w ||| k)) s

/-- MOVLB, "Move literal to BSR" (R169). -/
def execMovlb (k : BitVec 5) (s : State) : Result := .next { s.advance with bsr := k }

/-- MOVLP, "Move literal to PCLATH" (R170, C1). -/
def execMovlp (k : BitVec 7) (s : State) : Result := .next { s.advance with pclath := k }

/-- MOVLW, "Move literal to W" (R171): no flag. -/
def execMovlw (k : Byte) (s : State) : Result := literalOp (plainResult k) s

/-- SUBLW, "Subtract W from literal" (R172): the literal is the minuend. -/
def execSublw (k : Byte) (s : State) : Result := literalOp (sub8 k s.w true) s

/-- XORLW, "Exclusive OR literal with W" (R173). -/
def execXorlw (k : Byte) (s : State) : Result := literalOp (zResult (s.w ^^^ k)) s

end Sys2Proof.Machine
end

