-- ==== Sys2Proof/Machine/Environment.lean ====
section
/-! DEFINITION. Lines 1 to 4 of the machine step (spec/60_exceptions.md R236): what the environment does before the core executes
one instruction, by the choice at the head of `State.env` (R230). -/

namespace Sys2Proof.Machine

/-- What lines 1 to 4 lead to. -/
inductive Phase where
  /-- Line 5 follows: the core executes one instruction from this state. -/
  | run (s : State)
  /-- The step ends here: a reset (R11: it does not return), a refusal, or a core that stays asleep. -/
  | ends (r : Result)

/-- A choice that does nothing. -/
def quietChoice : EnvChoice := {}

/-- The environment's choice for this machine step; none left means it does nothing (assumption log 2). -/
def State.choice (s : State) : EnvChoice := s.env.headD quietChoice

/-- The choice is used up. -/
def State.dropChoice (s : State) : State := { s with env := s.env.tail }

/-- Line 2: the request inputs (R230 (a), R232). The environment sets flag bits; it does not clear them (assumption log 12). -/
def State.setInputs (e : EnvChoice) (s : State) : State :=
  { s with
    intcon := s.intcon ||| (0b0000#4 ++ BitVec.ofBool e.setTmr0if ++ BitVec.ofBool e.setIntf ++ BitVec.ofBool e.setIocif)
    periphReq := e.periph.getD s.periphReq }

/-- Line 2: a time-out can be delivered (R247): the watchdog is enabled and at least one instruction or sleep period has passed
since it was cleared. -/
def State.timeoutPossible (s : State) : Bool := s.cfg.wdtEnabled && (decide (0 < s.wdt) || decide (0 < s.wdtPre))

/-- One more instruction or sleep period for the watchdog (R45, R247; assumption log 9). -/
def State.tick (s : State) : State := { s with wdt := s.wdt + 1, wdtPre := s.wdtPre + 1 }

/-- Line 4: the condition of interrupt entry (R235) in a core that is awake. -/
def State.entryPossible (s : State) : Bool := s.gie && s.intReq

/-- INT_LATENCY_MAX instructions have been executed since entry became possible (R6, R236). -/
def State.entryOverdue (s : State) : Bool :=
  match s.cfg.intLatencyMax with
  | none => false
  | some n => decide (n ≤ s.intWait)

/-- The state in which line 5 runs: the watchdog has one more period, and the wait for an entry goes on or is over. -/
def State.forCore (s : State) (wait : Nat) : State := { s.tick with intWait := wait }

/-- Line 4, in a core that is awake: interrupt entry if it is possible and the environment takes it (R236: "may"), then line 5. -/
def awakePhase (e : EnvChoice) (s : State) : Phase :=
  if s.entryPossible then
    if e.intEntry || s.entryOverdue then
      match interruptEntry s with
      | .ok t => .run (t.forCore 0)
      | .error r => .ends r
    else .run (s.forCore (s.intWait + 1))
  else .run (s.forCore 0)

/-- Lines 2 to 4, after a step in which no external reset is raised. -/
def inputPhase (e : EnvChoice) (s : State) : Phase :=
  let t := s.setInputs e
  if e.wdtTimeout && t.timeoutPossible then
    if t.sleeping then awakePhase e { t with nTO := false, sleeping := false }
    else .ends (.next (deviceReset .watchdog t))
  else if t.sleeping then
    if e.wake && t.intReq then awakePhase e { t with sleeping := false }
    else .ends (.next t.tick)
  else awakePhase e t

/-- Lines 1 to 4 (R234, R236). -/
def envPhase (s : State) : Phase :=
  match s.choice.extReset with
  | some k => .ends (.next (deviceReset k.kind s.dropChoice))
  | none => inputPhase s.choice s.dropChoice

end Sys2Proof.Machine
end

