-- ==== Sys2Proof/Machine/Step.lean ====
section
/-! DEFINITION. The machine step (spec/60_exceptions.md R236), and the state in which the next step runs a given word. -/

namespace Sys2Proof.Machine

/-- Line 5 of R236, the core step of R17: fetch, decode, execute. -/
def coreStep (s : State) : Host.Outcome State Fault Refusal :=
  match fetch s with
  | .ok i => exec i s
  | .error e => .refused e

/-- One machine step (R236). -/
def step (s : State) : Host.Outcome State Fault Refusal :=
  match envPhase s with
  | .run t => coreStep t
  | .ends r => r

/-- `s` with the instruction whose bits are `w` stored where the next step fetches: the program word at pc (R17), in a core that
is awake (R46) and undisturbed by the environment (R236). It stands for the load of a program from outside (assumption log 18). -/
def State.withFetchWord (s : State) (nbits w : Nat) : State :=
  { s with
    prog := s.prog.write s.pc.toNat (BitVec.ofNat 14 (w % 2 ^ nbits))
    sleeping := false
    env := [] }

end Sys2Proof.Machine
end

