-- ==== Sys2Proof/Machine/Assembly.lean ====
section
/-! DEFINITION. The assembler's syntax lines (spec/30_encoding.md R112 to R117): an instruction as a mnemonic with operands, what each
line stands for, and the line that names an instruction. Labels and register names stand for the numbers they name (R112, R117);
directives and macros are out of scope (R5, R114). -/

namespace Sys2Proof.Machine

/-- The 51 mnemonics (R105). -/
inductive Mnemonic where
  | addwf
  | addwfc
  | andwf
  | asrf
  | lslf
  | lsrf
  | clrf
  | clrw
  | comf
  | decf
  | incf
  | iorwf
  | movf
  | movwf
  | rlf
  | rrf
  | subwf
  | subwfb
  | swapf
  | xorwf
  | decfsz
  | incfsz
  | bcf
  | bsf
  | btfsc
  | btfss
  | addlw
  | andlw
  | iorlw
  | movlb
  | movlp
  | movlw
  | sublw
  | xorlw
  | bra
  | brw
  | call
  | callw
  | goto
  | retfie
  | retlw
  | ret
  | clrwdt
  | nop
  | option
  | reset
  | sleep
  | tris
  | addfsr
  | moviw
  | movwi
deriving DecidableEq, Repr

/-- The operand forms of R112. -/
inductive AsmOperands where
  /-- `f,d` and `f {,d}`: d may be left out (R113). -/
  | fileDest (f : FileAddr) (d : Option Dest)
  /-- `f`, of CLRF, MOVWF and TRIS. -/
  | file (f : FileAddr)
  /-- `f,b`. -/
  | fileBit (f : FileAddr) (b : BitVec 3)
  /-- `k`. -/
  | literal (k : Nat)
  /-- `label`, of BRA: the address it names. -/
  | label (a : ProgAddr)
  /-- `$+k`, of BRA: `$` is the address of the BRA itself (R115). -/
  | here (k : Int)
  /-- `FSRn, k`. -/
  | fsrLiteral (n : FsrSel) (k : Int)
  /-- `++FSRn`, `--FSRn`, `FSRn++`, `FSRn--` (R116). -/
  | stepped (n : FsrSel) (mm : FsrMode)
  /-- `k[FSRn]` (R116). -/
  | indexed (k : Int) (n : FsrSel)
  /-- No operand. -/
  | none
deriving DecidableEq, Repr

/-- A syntax line without its label (R112). -/
structure AsmLine where
  mnemonic : Mnemonic
  operands : AsmOperands
deriving DecidableEq, Repr

/-- How the mnemonic is written (R105). -/
def Mnemonic.text : Mnemonic → String
  | .addwf => "ADDWF"
  | .addwfc => "ADDWFC"
  | .andwf => "ANDWF"
  | .asrf => "ASRF"
  | .lslf => "LSLF"
  | .lsrf => "LSRF"
  | .clrf => "CLRF"
  | .clrw => "CLRW"
  | .comf => "COMF"
  | .decf => "DECF"
  | .incf => "INCF"
  | .iorwf => "IORWF"
  | .movf => "MOVF"
  | .movwf => "MOVWF"
  | .rlf => "RLF"
  | .rrf => "RRF"
  | .subwf => "SUBWF"
  | .subwfb => "SUBWFB"
  | .swapf => "SWAPF"
  | .xorwf => "XORWF"
  | .decfsz => "DECFSZ"
  | .incfsz => "INCFSZ"
  | .bcf => "BCF"
  | .bsf => "BSF"
  | .btfsc => "BTFSC"
  | .btfss => "BTFSS"
  | .addlw => "ADDLW"
  | .andlw => "ANDLW"
  | .iorlw => "IORLW"
  | .movlb => "MOVLB"
  | .movlp => "MOVLP"
  | .movlw => "MOVLW"
  | .sublw => "SUBLW"
  | .xorlw => "XORLW"
  | .bra => "BRA"
  | .brw => "BRW"
  | .call => "CALL"
  | .callw => "CALLW"
  | .goto => "GOTO"
  | .retfie => "RETFIE"
  | .retlw => "RETLW"
  | .ret => "RETURN"
  | .clrwdt => "CLRWDT"
  | .nop => "NOP"
  | .option => "OPTION"
  | .reset => "RESET"
  | .sleep => "SLEEP"
  | .tris => "TRIS"
  | .addfsr => "ADDFSR"
  | .moviw => "MOVIW"
  | .movwi => "MOVWI"

/-- `MNEMONIC f,d`: an omitted d means d = 1, the file register (R113). -/
def asmFileDest (mk : FileAddr → Dest → Instr) : AsmOperands → Option Instr
  | .fileDest f d => some (mk f (d.getD .f))
  | _ => Option.none

/-- `MNEMONIC f`. -/
def asmFile (mk : FileAddr → Instr) : AsmOperands → Option Instr
  | .file f => some (mk f)
  | _ => Option.none

/-- `MNEMONIC f,b`. -/
def asmFileBit (mk : FileAddr → BitVec 3 → Instr) : AsmOperands → Option Instr
  | .fileBit f b => some (mk f b)
  | _ => Option.none

/-- `MNEMONIC k` with an unsigned field of `n` bits. -/
def asmLiteral (n : Nat) (mk : BitVec n → Instr) : AsmOperands → Option Instr
  | .literal k => if k < 2 ^ n then some (mk (BitVec.ofNat n k)) else Option.none
  | _ => Option.none

/-- `MNEMONIC` with no operand. -/
def asmPlain (i : Instr) : AsmOperands → Option Instr
  | .none => some i
  | _ => Option.none

/-- `TRIS f`, for f = 5, 6, 7 only (R103). -/
def asmTris : AsmOperands → Option Instr
  | .file f => if f = 5 then some .tris5 else if f = 6 then some .tris6 else if f = 7 then some .tris7 else Option.none
  | _ => Option.none

/-- `BRA label` and `BRA $+k` at address `pc`: the field is `label - (pc + 1)`, or one less than the number after `$+` (R115). -/
def asmBra (pc : ProgAddr) : AsmOperands → Option Instr
  | .label a =>
    let k : Int := a.toNat - (pc.toNat + 1)
    if inSigned9 k then some (.bra k) else Option.none
  | .here k => if inSigned9 (k - 1) then some (.bra (k - 1)) else Option.none
  | _ => Option.none

/-- `ADDFSR FSRn, k`. -/
def asmFsrLiteral (mk : FsrSel → Int → Instr) : AsmOperands → Option Instr
  | .fsrLiteral n k => if inSigned6 k then some (mk n k) else Option.none
  | _ => Option.none

/-- The five operand forms of MOVIW and MOVWI (R116). -/
def asmMove (mode : FsrSel → FsrMode → Instr) (indexed : FsrSel → Int → Instr) : AsmOperands → Option Instr
  | .stepped n mm => some (mode n mm)
  | .indexed k n => if inSigned6 k then some (indexed n k) else Option.none
  | _ => Option.none

/-- The instruction that a line at address `pc` stands for (R112, R113, R115, R116); `none` where an operand does not fit the form or
its field. CLRW's don't-care bits are 0 (R104). -/
def assemble (pc : ProgAddr) (l : AsmLine) : Option Instr :=
  match l.mnemonic with
  | .addwf => asmFileDest .addwf l.operands
  | .addwfc => asmFileDest .addwfc l.operands
  | .andwf => asmFileDest .andwf l.operands
  | .asrf => asmFileDest .asrf l.operands
  | .lslf => asmFileDest .lslf l.operands
  | .lsrf => asmFileDest .lsrf l.operands
  | .clrf => asmFile .clrf l.operands
  | .clrw => asmPlain (.clrw 0) l.operands
  | .comf => asmFileDest .comf l.operands
  | .decf => asmFileDest .decf l.operands
  | .incf => asmFileDest .incf l.operands
  | .iorwf => asmFileDest .iorwf l.operands
  | .movf => asmFileDest .movf l.operands
  | .movwf => asmFile .movwf l.operands
  | .rlf => asmFileDest .rlf l.operands
  | .rrf => asmFileDest .rrf l.operands
  | .subwf => asmFileDest .subwf l.operands
  | .subwfb => asmFileDest .subwfb l.operands
  | .swapf => asmFileDest .swapf l.operands
  | .xorwf => asmFileDest .xorwf l.operands
  | .decfsz => asmFileDest .decfsz l.operands
  | .incfsz => asmFileDest .incfsz l.operands
  | .bcf => asmFileBit .bcf l.operands
  | .bsf => asmFileBit .bsf l.operands
  | .btfsc => asmFileBit .btfsc l.operands
  | .btfss => asmFileBit .btfss l.operands
  | .addlw => asmLiteral 8 .addlw l.operands
  | .andlw => asmLiteral 8 .andlw l.operands
  | .iorlw => asmLiteral 8 .iorlw l.operands
  | .movlb => asmLiteral 5 .movlb l.operands
  | .movlp => asmLiteral 7 .movlp l.operands
  | .movlw => asmLiteral 8 .movlw l.operands
  | .sublw => asmLiteral 8 .sublw l.operands
  | .xorlw => asmLiteral 8 .xorlw l.operands
  | .bra => asmBra pc l.operands
  | .brw => asmPlain .brw l.operands
  | .call => asmLiteral 11 .call l.operands
  | .callw => asmPlain .callw l.operands
  | .goto => asmLiteral 11 .goto l.operands
  | .retfie => asmPlain .retfie l.operands
  | .retlw => asmLiteral 8 .retlw l.operands
  | .ret => asmPlain .ret l.operands
  | .clrwdt => asmPlain .clrwdt l.operands
  | .nop => asmPlain .nop l.operands
  | .option => asmPlain .option l.operands
  | .reset => asmPlain .reset l.operands
  | .sleep => asmPlain .sleep l.operands
  | .tris => asmTris l.operands
  | .addfsr => asmFsrLiteral .addfsr l.operands
  | .moviw => asmMove .moviwMode .moviwIndexed l.operands
  | .movwi => asmMove .movwiMode .movwiIndexed l.operands

/-- The line that names an instruction, with d written out, as the spec writes its examples (R112, R113); BRA is written `BRA $+k`. -/
def asmLine : Instr → AsmLine
  | .addwf f d => ⟨.addwf, .fileDest f (some d)⟩
  | .addwfc f d => ⟨.addwfc, .fileDest f (some d)⟩
  | .andwf f d => ⟨.andwf, .fileDest f (some d)⟩
  | .asrf f d => ⟨.asrf, .fileDest f (some d)⟩
  | .lslf f d => ⟨.lslf, .fileDest f (some d)⟩
  | .lsrf f d => ⟨.lsrf, .fileDest f (some d)⟩
  | .clrf f => ⟨.clrf, .file f⟩
  | .clrw _ => ⟨.clrw, .none⟩
  | .comf f d => ⟨.comf, .fileDest f (some d)⟩
  | .decf f d => ⟨.decf, .fileDest f (some d)⟩
  | .incf f d => ⟨.incf, .fileDest f (some d)⟩
  | .iorwf f d => ⟨.iorwf, .fileDest f (some d)⟩
  | .movf f d => ⟨.movf, .fileDest f (some d)⟩
  | .movwf f => ⟨.movwf, .file f⟩
  | .rlf f d => ⟨.rlf, .fileDest f (some d)⟩
  | .rrf f d => ⟨.rrf, .fileDest f (some d)⟩
  | .subwf f d => ⟨.subwf, .fileDest f (some d)⟩
  | .subwfb f d => ⟨.subwfb, .fileDest f (some d)⟩
  | .swapf f d => ⟨.swapf, .fileDest f (some d)⟩
  | .xorwf f d => ⟨.xorwf, .fileDest f (some d)⟩
  | .decfsz f d => ⟨.decfsz, .fileDest f (some d)⟩
  | .incfsz f d => ⟨.incfsz, .fileDest f (some d)⟩
  | .bcf f b => ⟨.bcf, .fileBit f b⟩
  | .bsf f b => ⟨.bsf, .fileBit f b⟩
  | .btfsc f b => ⟨.btfsc, .fileBit f b⟩
  | .btfss f b => ⟨.btfss, .fileBit f b⟩
  | .addlw k => ⟨.addlw, .literal k.toNat⟩
  | .andlw k => ⟨.andlw, .literal k.toNat⟩
  | .iorlw k => ⟨.iorlw, .literal k.toNat⟩
  | .movlb k => ⟨.movlb, .literal k.toNat⟩
  | .movlp k => ⟨.movlp, .literal k.toNat⟩
  | .movlw k => ⟨.movlw, .literal k.toNat⟩
  | .sublw k => ⟨.sublw, .literal k.toNat⟩
  | .xorlw k => ⟨.xorlw, .literal k.toNat⟩
  | .bra k => ⟨.bra, .here (k + 1)⟩
  | .brw => ⟨.brw, .none⟩
  | .call k => ⟨.call, .literal k.toNat⟩
  | .callw => ⟨.callw, .none⟩
  | .goto k => ⟨.goto, .literal k.toNat⟩
  | .retfie => ⟨.retfie, .none⟩
  | .retlw k => ⟨.retlw, .literal k.toNat⟩
  | .ret => ⟨.ret, .none⟩
  | .clrwdt => ⟨.clrwdt, .none⟩
  | .nop => ⟨.nop, .none⟩
  | .option => ⟨.option, .none⟩
  | .reset => ⟨.reset, .none⟩
  | .sleep => ⟨.sleep, .none⟩
  | .tris5 => ⟨.tris, .file 5⟩
  | .tris6 => ⟨.tris, .file 6⟩
  | .tris7 => ⟨.tris, .file 7⟩
  | .addfsr n k => ⟨.addfsr, .fsrLiteral n k⟩
  | .moviwMode n mm => ⟨.moviw, .stepped n mm⟩
  | .moviwIndexed n k => ⟨.moviw, .indexed k n⟩
  | .movwiMode n mm => ⟨.movwi, .stepped n mm⟩
  | .movwiIndexed n k => ⟨.movwi, .indexed k n⟩

end Sys2Proof.Machine
end

