-- ==== Sys2Proof/Machine/Timing.lean ====
section
/-! DEFINITION. The cycle count of one executed instruction (spec/70_reset_and_hazards.md R279). No state depends on it: the
machine has no cycle counter (spec/60_exceptions.md R246; assumption log 22). -/

namespace Sys2Proof.Machine

/-- The location a file operand with destination select `d` is written at, if it is one (R12). -/
def fileWriteLoc (s : State) (f : FileAddr) (d : Dest) : Option Loc :=
  match d with
  | .w => none
  | .f => (fileLoc s f).toOption

/-- The one location an instruction writes through its file operand or its FSR (R71), if it has one and the address is not refused. -/
def storeTarget (i : Instr) (s : State) : Option Loc :=
  match i with
  | .addwf f d => fileWriteLoc s f d
  | .addwfc f d => fileWriteLoc s f d
  | .andwf f d => fileWriteLoc s f d
  | .asrf f d => fileWriteLoc s f d
  | .lslf f d => fileWriteLoc s f d
  | .lsrf f d => fileWriteLoc s f d
  | .clrf f => fileWriteLoc s f .f
  | .clrw _ => none
  | .comf f d => fileWriteLoc s f d
  | .decf f d => fileWriteLoc s f d
  | .incf f d => fileWriteLoc s f d
  | .iorwf f d => fileWriteLoc s f d
  | .movf f d => fileWriteLoc s f d
  | .movwf f => fileWriteLoc s f .f
  | .rlf f d => fileWriteLoc s f d
  | .rrf f d => fileWriteLoc s f d
  | .subwf f d => fileWriteLoc s f d
  | .subwfb f d => fileWriteLoc s f d
  | .swapf f d => fileWriteLoc s f d
  | .xorwf f d => fileWriteLoc s f d
  | .decfsz f d => fileWriteLoc s f d
  | .incfsz f d => fileWriteLoc s f d
  | .bcf f _ => fileWriteLoc s f .f
  | .bsf f _ => fileWriteLoc s f .f
  | .btfsc _ _ => none
  | .btfss _ _ => none
  | .addlw _ => none
  | .andlw _ => none
  | .iorlw _ => none
  | .movlb _ => none
  | .movlp _ => none
  | .movlw _ => none
  | .sublw _ => none
  | .xorlw _ => none
  | .bra _ => none
  | .brw => none
  | .call _ => none
  | .callw => none
  | .goto _ => none
  | .retfie => none
  | .retlw _ => none
  | .ret => none
  | .clrwdt => none
  | .nop => none
  | .option => none
  | .reset => none
  | .sleep => none
  | .tris5 => none
  | .tris6 => none
  | .tris7 => none
  | .addfsr _ _ => none
  | .moviwMode _ _ => none
  | .moviwIndexed _ _ => none
  | .movwiMode n mm => (indLoc s.cfg (modeAddress mm (s.fsr n))).toOption
  | .movwiIndexed n k => (indLoc s.cfg (indexedAddress (s.fsr n) k)).toOption

/-- The base column of R279 (the Cycles column of Table 28-3). -/
def baseCycles : Instr → Nat
  | .addwf _ _ => 1
  | .addwfc _ _ => 1
  | .andwf _ _ => 1
  | .asrf _ _ => 1
  | .lslf _ _ => 1
  | .lsrf _ _ => 1
  | .clrf _ => 1
  | .clrw _ => 1
  | .comf _ _ => 1
  | .decf _ _ => 1
  | .incf _ _ => 1
  | .iorwf _ _ => 1
  | .movf _ _ => 1
  | .movwf _ => 1
  | .rlf _ _ => 1
  | .rrf _ _ => 1
  | .subwf _ _ => 1
  | .subwfb _ _ => 1
  | .swapf _ _ => 1
  | .xorwf _ _ => 1
  | .decfsz _ _ => 1
  | .incfsz _ _ => 1
  | .bcf _ _ => 1
  | .bsf _ _ => 1
  | .btfsc _ _ => 1
  | .btfss _ _ => 1
  | .addlw _ => 1
  | .andlw _ => 1
  | .iorlw _ => 1
  | .movlb _ => 1
  | .movlp _ => 1
  | .movlw _ => 1
  | .sublw _ => 1
  | .xorlw _ => 1
  | .bra _ => 2
  | .brw => 2
  | .call _ => 2
  | .callw => 2
  | .goto _ => 2
  | .retfie => 2
  | .retlw _ => 2
  | .ret => 2
  | .clrwdt => 1
  | .nop => 1
  | .option => 1
  | .reset => 1
  | .sleep => 1
  | .tris5 => 1
  | .tris6 => 1
  | .tris7 => 1
  | .addfsr _ _ => 1
  | .moviwMode _ _ => 1
  | .moviwIndexed _ _ => 1
  | .movwiMode _ _ => 1
  | .movwiIndexed _ _ => 1

/-- The skip of DECFSZ, INCFSZ, BTFSC or BTFSS is taken (R279, Note 1: "a conditional test is true"). -/
def skipTaken (i : Instr) (s : State) : Bool :=
  match i with
  | .addwf _ _ => false
  | .addwfc _ _ => false
  | .andwf _ _ => false
  | .asrf _ _ => false
  | .lslf _ _ => false
  | .lsrf _ _ => false
  | .clrf _ => false
  | .clrw _ => false
  | .comf _ _ => false
  | .decf _ _ => false
  | .incf _ _ => false
  | .iorwf _ _ => false
  | .movf _ _ => false
  | .movwf _ => false
  | .rlf _ _ => false
  | .rrf _ _ => false
  | .subwf _ _ => false
  | .subwfb _ _ => false
  | .swapf _ _ => false
  | .xorwf _ _ => false
  | .decfsz f _ => (fread s f).toOption == some 0x01#8
  | .incfsz f _ => (fread s f).toOption == some 0xFF#8
  | .bcf _ _ => false
  | .bsf _ _ => false
  | .btfsc f b => (fread s f).toOption.any fun v => !bitOf v b
  | .btfss f b => (fread s f).toOption.any fun v => bitOf v b
  | .addlw _ => false
  | .andlw _ => false
  | .iorlw _ => false
  | .movlb _ => false
  | .movlp _ => false
  | .movlw _ => false
  | .sublw _ => false
  | .xorlw _ => false
  | .bra _ => false
  | .brw => false
  | .call _ => false
  | .callw => false
  | .goto _ => false
  | .retfie => false
  | .retlw _ => false
  | .ret => false
  | .clrwdt => false
  | .nop => false
  | .option => false
  | .reset => false
  | .sleep => false
  | .tris5 => false
  | .tris6 => false
  | .tris7 => false
  | .addfsr _ _ => false
  | .moviwMode _ _ => false
  | .moviwIndexed _ _ => false
  | .movwiMode _ _ => false
  | .movwiIndexed _ _ => false

/-- The operand is INDFn and the MSb of FSR[n] is set (R279, Note 2). -/
def indfInProgram (s : State) (f : FileAddr) : Bool := (s.indfPointer f).any fun p => p.getLsbD 15

/-- Note 2 of Table 28-3 applies and its condition holds (R279). -/
def slowAccess (i : Instr) (s : State) : Bool :=
  match i with
  | .addwf f _ => indfInProgram s f
  | .addwfc f _ => indfInProgram s f
  | .andwf f _ => indfInProgram s f
  | .asrf f _ => indfInProgram s f
  | .lslf f _ => indfInProgram s f
  | .lsrf f _ => indfInProgram s f
  | .clrf f => indfInProgram s f
  | .clrw _ => false
  | .comf f _ => indfInProgram s f
  | .decf f _ => indfInProgram s f
  | .incf f _ => indfInProgram s f
  | .iorwf f _ => indfInProgram s f
  | .movf f _ => indfInProgram s f
  | .movwf f => indfInProgram s f
  | .rlf f _ => indfInProgram s f
  | .rrf f _ => indfInProgram s f
  | .subwf f _ => indfInProgram s f
  | .subwfb f _ => indfInProgram s f
  | .swapf f _ => indfInProgram s f
  | .xorwf f _ => indfInProgram s f
  | .decfsz f _ => indfInProgram s f
  | .incfsz f _ => indfInProgram s f
  | .bcf f _ => indfInProgram s f
  | .bsf f _ => indfInProgram s f
  | .btfsc f _ => indfInProgram s f
  | .btfss f _ => indfInProgram s f
  | .addlw _ => false
  | .andlw _ => false
  | .iorlw _ => false
  | .movlb _ => false
  | .movlp _ => false
  | .movlw _ => false
  | .sublw _ => false
  | .xorlw _ => false
  | .bra _ => false
  | .brw => false
  | .call _ => false
  | .callw => false
  | .goto _ => false
  | .retfie => false
  | .retlw _ => false
  | .ret => false
  | .clrwdt => false
  | .nop => false
  | .option => false
  | .reset => false
  | .sleep => false
  | .tris5 => false
  | .tris6 => false
  | .tris7 => false
  | .addfsr _ _ => false
  | .moviwMode n mm => (modeAddress mm (s.fsr n)).getLsbD 15
  | .moviwIndexed n k => (indexedAddress (s.fsr n) k).getLsbD 15
  | .movwiMode n mm => (modeAddress mm (s.fsr n)).getLsbD 15
  | .movwiIndexed n k => (indexedAddress (s.fsr n) k).getLsbD 15

/-- `cycles = base + Note 1 + Note 2` (R279). Note 1 holds when the skip is taken or PCL is written (C17, R211); the two do not meet,
a skip instruction that writes PCL being refused (R54). -/
def cycles (i : Instr) (s : State) : Nat :=
  baseCycles i + (if skipTaken i s || storeTarget i s == some (.core .pcl) then 1 else 0) +
    (if slowAccess i s then 1 else 0)

end Sys2Proof.Machine
end

