-- ==== Sys2Proof/Safety.lean ====
section
/-! DEFINITION. What claims are stated in: the invariant of the machine, the rule shapes that the instructions of one format share,
the classifications that the frames use (R21, R36), and the resets an instruction raises (R231). -/

namespace Sys2Proof.Machine

/-- The data map is the spec's: CoreRegMap and NBANKS hold the defaults of R6 (D2, D3). -/
def hasSpecMap (p : Params) : Prop := p.coreRegMap = coreRegMapDefault ∧ p.nbanks = 32

/-- A reset is the spec's: ResetValues and RESET_VECTOR hold the defaults of R6 (R51, D22). -/
def hasSpecReset (p : Params) : Prop := p.resetValues = resetValuesDefault ∧ p.resetVector = 0x0000

/-- A key of `State.ram` that stands for a byte of this configuration: common RAM (R69), banked GPR (R68), or a peripheral register
to which SfrModel gives the meaning of storage (R66; assumption log 16). -/
def ramKeyOk (p : Params) (key : Nat) : Prop :=
  (0x70 ≤ key ∧ key ≤ 0x7F) ∨ (key < 4096 ∧ (hasGpr p key = true ∨ BitVec.ofNat 12 key ∈ p.sfrModel))

/-- The invariant of the machine: the two memories keep their canonical form, RAM lists only addresses where RAM is (R67: writes
to unimplemented locations are ignored), the return stack holds at most STACK_DEPTH entries (R20), and the configuration is one the
spec admits. -/
structure State.Inv (s : State) : Prop where
  ram : s.ram.wf
  ramKeys : ∀ e ∈ s.ram, ramKeyOk s.cfg e.1
  prog : s.prog.wf
  stack : s.stack.length ≤ s.cfg.stackDepth
  cfg : s.cfg.wellFormed = true

/-- `(pc + n) mod 2^15`, computed on integers (R27). -/
def pcPlus (s : State) (n : Int) : ProgAddr := BitVec.ofInt 15 (s.pc.toNat + n)

/-- The cycle that Note 2 of Table 28-3 adds to an instruction with a file operand (R279). -/
def indfCycle (s : State) (f : FileAddr) : Nat :=
  if (coreAt s.cfg f.toNat = some .indf0 ∧ 0x8000 ≤ s.fsr0.toNat) ∨
    (coreAt s.cfg f.toNat = some .indf1 ∧ 0x8000 ≤ s.fsr1.toNat) then 1 else 0

/-- The rule of an `f, d` instruction (format BYTE, R92): its word, its cycles, and what it does when the operand can be read and the
destination written, or not. `value s v` is the result for the operand byte `v`, `flags s v t` the state `t` with the flags of the
result. -/
def FileOpRule (mk : FileAddr → Dest → Instr) (opcode : BitVec 6) (kind : FlagKind) (value : State → Byte → Byte)
    (flags : State → Byte → State → State) : Prop :=
  ∀ (f : FileAddr) (d : Dest) (s : State),
    decode (opcode ++ d.bit ++ f) = .ok (mk f d) ∧
    cycles (mk f d) s = 1 + (if d = .f ∧ selectsPcl s f = true then 1 else 0) + indfCycle s f ∧
    (∀ v, fread s f = .ok v →
      exec (mk f .w) s = .next (flags s v { s with pc := pcPlus s 1, w := value s v }) ∧
      (∀ t, fwrite s { s with pc := pcPlus s 1 } f kind (value s v) = .ok t → exec (mk f .f) s = .next (flags s v t)) ∧
      (∀ e, fwrite s { s with pc := pcPlus s 1 } f kind (value s v) = .error e → exec (mk f .f) s = .refused e)) ∧
    (∀ e, fread s f = .error e → exec (mk f d) s = .refused e)

/-- The rule of an instruction that writes a file register without reading it (format FILE, R92). -/
def StoreRule (mk : FileAddr → Instr) (opcode : BitVec 7) (kind : FlagKind) (value : State → Byte)
    (flags : State → State) : Prop :=
  ∀ (f : FileAddr) (s : State),
    decode (opcode ++ f) = .ok (mk f) ∧
    cycles (mk f) s = 1 + (if selectsPcl s f = true then 1 else 0) + indfCycle s f ∧
    (∀ t, fwrite s { s with pc := pcPlus s 1 } f kind (value s) = .ok t → exec (mk f) s = .next (flags t)) ∧
    (∀ e, fwrite s { s with pc := pcPlus s 1 } f kind (value s) = .error e → exec (mk f) s = .refused e)

/-- The rule of BCF and BSF (format BIT, R155): the whole byte is read, one bit changed, the whole byte written. -/
def BitOpRule (mk : FileAddr → BitVec 3 → Instr) (opcode : BitVec 4) (value : Byte → BitVec 3 → Byte) : Prop :=
  ∀ (f : FileAddr) (b : BitVec 3) (s : State),
    decode (opcode ++ b ++ f) = .ok (mk f b) ∧
    cycles (mk f b) s = 1 + (if selectsPcl s f = true then 1 else 0) + indfCycle s f ∧
    (∀ v, fread s f = .ok v →
      (∀ t, fwrite s { s with pc := pcPlus s 1 } f .noFlags (value v b) = .ok t → exec (mk f b) s = .next t) ∧
      (∀ e, fwrite s { s with pc := pcPlus s 1 } f .noFlags (value v b) = .error e → exec (mk f b) s = .refused e)) ∧
    (∀ e, fread s f = .error e → exec (mk f b) s = .refused e)

/-- The rule of DECFSZ and INCFSZ (R150 to R152): no flag is written, and a result of 0 moves pc by two. -/
def SkipRule (mk : FileAddr → Dest → Instr) (opcode : BitVec 6) (value : Byte → Byte) : Prop :=
  ∀ (f : FileAddr) (d : Dest) (s : State),
    decode (opcode ++ d.bit ++ f) = .ok (mk f d) ∧
    (∀ v, fread s f = .ok v →
      let next : State := { s with pc := pcPlus s (if value v = 0 then 2 else 1) }
      exec (mk f .w) s = .next { next with w := value v } ∧
      (selectsPcl s f = true → exec (mk f .f) s = .refused .skipWritesPcl) ∧
      (selectsPcl s f = false →
        (∀ t, fwrite s next f .noFlags (value v) = .ok t → exec (mk f .f) s = .next t) ∧
        (∀ e, fwrite s next f .noFlags (value v) = .error e → exec (mk f .f) s = .refused e)) ∧
      (¬(d = .f ∧ selectsPcl s f = true) →
        cycles (mk f d) s = 1 + (if value v = 0 then 1 else 0) + indfCycle s f)) ∧
    (∀ e, fread s f = .error e → exec (mk f d) s = .refused e)

/-- The rule of BTFSC and BTFSS (R160 to R162): the byte is read, nothing but pc is written. -/
def BitSkipRule (mk : FileAddr → BitVec 3 → Instr) (opcode : BitVec 4) (wanted : Nat) : Prop :=
  ∀ (f : FileAddr) (b : BitVec 3) (s : State),
    decode (opcode ++ b ++ f) = .ok (mk f b) ∧
    (∀ v, fread s f = .ok v →
      exec (mk f b) s = .next { s with pc := pcPlus s (if v.toNat / 2 ^ b.toNat % 2 = wanted then 2 else 1) } ∧
      cycles (mk f b) s = 1 + (if v.toNat / 2 ^ b.toNat % 2 = wanted then 1 else 0) + indfCycle s f) ∧
    (∀ e, fread s f = .error e → exec (mk f b) s = .refused e)

/-- The instructions that write W by their own rule (the list of R21). -/
def writesW : Instr → Bool
  | .addwf _ d => d == .w
  | .addwfc _ d => d == .w
  | .andwf _ d => d == .w
  | .asrf _ d => d == .w
  | .lslf _ d => d == .w
  | .lsrf _ d => d == .w
  | .clrf _ => false
  | .clrw _ => true
  | .comf _ d => d == .w
  | .decf _ d => d == .w
  | .incf _ d => d == .w
  | .iorwf _ d => d == .w
  | .movf _ d => d == .w
  | .movwf _ => false
  | .rlf _ d => d == .w
  | .rrf _ d => d == .w
  | .subwf _ d => d == .w
  | .subwfb _ d => d == .w
  | .swapf _ d => d == .w
  | .xorwf _ d => d == .w
  | .decfsz _ d => d == .w
  | .incfsz _ d => d == .w
  | .bcf _ _ => false
  | .bsf _ _ => false
  | .btfsc _ _ => false
  | .btfss _ _ => false
  | .addlw _ => true
  | .andlw _ => true
  | .iorlw _ => true
  | .movlb _ => false
  | .movlp _ => false
  | .movlw _ => true
  | .sublw _ => true
  | .xorlw _ => true
  | .bra _ => false
  | .brw => false
  | .call _ => false
  | .callw => false
  | .goto _ => false
  | .retfie => false
  | .retlw _ => true
  | .ret => false
  | .clrwdt => false
  | .nop => false
  | .option => false
  | .reset => false
  | .sleep => false
  | .tris5 => false
  | .tris6 => false
  | .tris7 => false
  | .addfsr _ _ => false
  | .moviwMode _ _ => true
  | .moviwIndexed _ _ => true
  | .movwiMode _ _ => false
  | .movwiIndexed _ _ => false

/-- The Status Affected list of an instruction (the table of R36): C, DC, Z. -/
structure Affects where
  c : Bool
  dc : Bool
  z : Bool
deriving DecidableEq, Repr

/-- The table of R36 for C, DC and Z. -/
def affects : Instr → Affects
  | .addwf _ _ => ⟨true, true, true⟩
  | .addwfc _ _ => ⟨true, true, true⟩
  | .andwf _ _ => ⟨false, false, true⟩
  | .asrf _ _ => ⟨true, false, true⟩
  | .lslf _ _ => ⟨true, false, true⟩
  | .lsrf _ _ => ⟨true, false, true⟩
  | .clrf _ => ⟨false, false, true⟩
  | .clrw _ => ⟨false, false, true⟩
  | .comf _ _ => ⟨false, false, true⟩
  | .decf _ _ => ⟨false, false, true⟩
  | .incf _ _ => ⟨false, false, true⟩
  | .iorwf _ _ => ⟨false, false, true⟩
  | .movf _ _ => ⟨false, false, true⟩
  | .movwf _ => ⟨false, false, false⟩
  | .rlf _ _ => ⟨true, false, false⟩
  | .rrf _ _ => ⟨true, false, false⟩
  | .subwf _ _ => ⟨true, true, true⟩
  | .subwfb _ _ => ⟨true, true, true⟩
  | .swapf _ _ => ⟨false, false, false⟩
  | .xorwf _ _ => ⟨false, false, true⟩
  | .decfsz _ _ => ⟨false, false, false⟩
  | .incfsz _ _ => ⟨false, false, false⟩
  | .bcf _ _ => ⟨false, false, false⟩
  | .bsf _ _ => ⟨false, false, false⟩
  | .btfsc _ _ => ⟨false, false, false⟩
  | .btfss _ _ => ⟨false, false, false⟩
  | .addlw _ => ⟨true, true, true⟩
  | .andlw _ => ⟨false, false, true⟩
  | .iorlw _ => ⟨false, false, true⟩
  | .movlb _ => ⟨false, false, false⟩
  | .movlp _ => ⟨false, false, false⟩
  | .movlw _ => ⟨false, false, false⟩
  | .sublw _ => ⟨true, true, true⟩
  | .xorlw _ => ⟨false, false, true⟩
  | .bra _ => ⟨false, false, false⟩
  | .brw => ⟨false, false, false⟩
  | .call _ => ⟨false, false, false⟩
  | .callw => ⟨false, false, false⟩
  | .goto _ => ⟨false, false, false⟩
  | .retfie => ⟨false, false, false⟩
  | .retlw _ => ⟨false, false, false⟩
  | .ret => ⟨false, false, false⟩
  | .clrwdt => ⟨false, false, false⟩
  | .nop => ⟨false, false, false⟩
  | .option => ⟨false, false, false⟩
  | .reset => ⟨false, false, false⟩
  | .sleep => ⟨false, false, false⟩
  | .tris5 => ⟨false, false, false⟩
  | .tris6 => ⟨false, false, false⟩
  | .tris7 => ⟨false, false, false⟩
  | .addfsr _ _ => ⟨false, false, false⟩
  | .moviwMode _ _ => ⟨false, false, true⟩
  | .moviwIndexed _ _ => ⟨false, false, true⟩
  | .movwiMode _ _ => ⟨false, false, false⟩
  | .movwiIndexed _ _ => ⟨false, false, false⟩

/-- The instruction raises a device reset in this state (R231): RESET, a call on a full stack, a return from an empty one. -/
def RaisesReset (i : Instr) (s : State) : Prop :=
  i = .reset ∨
    (((∃ k, i = .call k) ∨ i = .callw) ∧ s.cfg.stackDepth ≤ s.stack.length) ∨
    ((i = .ret ∨ (∃ k, i = .retlw k) ∨ i = .retfie) ∧ s.stack = [])

/-- The instruction restores the interrupted context (R190). -/
def RestoresContext (i : Instr) (s : State) : Prop := i = .retfie ∧ s.cfg.autoContext = true

/-- The instruction acts on the return stack (R60). -/
def UsesStack (i : Instr) : Prop :=
  (∃ k, i = .call k) ∨ i = .callw ∨ i = .ret ∨ (∃ k, i = .retlw k) ∨ i = .retfie

end Sys2Proof.Machine
end

