-- ==== Sys2Proof/Certificates/Slice0/Obligations.lean ====
section
/-! DEFINITION. The statements about the model, each a proposition to be proved elsewhere. A statement that rests on a choice of the
model names the assumption log's entry. -/

open Sys2Proof Sys2Proof.Machine

/-! ## Decoding and encoding -/

/-- A few words of the spec's worked examples decode to the instructions they stand for (sanity). -/
def Obligations.SampleWordsDecode : Prop :=
  decode 0x3DA0#14 = .ok (.addwfc 0x20 .f) ∧ decode 0x0520#14 = .ok (.andwf 0x20 .w) ∧
  decode 0x01A0#14 = .ok (.clrf 0x20) ∧ decode 0x0103#14 = .ok (.clrw 3) ∧
  decode 0x0BA0#14 = .ok (.decfsz 0x20 .f) ∧ decode 0x13A0#14 = .ok (.bcf 0x20 7) ∧
  decode 0x1FA0#14 = .ok (.btfss 0x20 7) ∧ decode 0x3E15#14 = .ok (.addlw 0x15) ∧
  decode 0x003F#14 = .ok (.movlb 31) ∧ decode 0x31FF#14 = .ok (.movlp 0x7F) ∧
  decode 0x3300#14 = .ok (.bra (-256)) ∧ decode 0x33FF#14 = .ok (.bra (-1)) ∧
  decode 0x27FF#14 = .ok (.call 0x7FF) ∧ decode 0x2A34#14 = .ok (.goto 0x234) ∧
  decode 0x3442#14 = .ok (.retlw 0x42) ∧ decode 0x0063#14 = .ok .sleep ∧ decode 0x0067#14 = .ok .tris7 ∧
  decode 0x317F#14 = .ok (.addfsr .fsr1 (-1)) ∧ decode 0x0017#14 = .ok (.moviwMode .fsr1 .postDec) ∧
  decode 0x3F42#14 = .ok (.moviwIndexed .fsr1 2) ∧ decode 0x001D#14 = .ok (.movwiMode .fsr1 .preDec) ∧
  decode 0x3FE0#14 = .ok (.movwiIndexed .fsr1 (-32))

/-- DECODE AND ENCODE AGREE: decoding the word of a well-formed instruction gives the instruction back, with every operand at every
value its field admits, and the host's reading of the same bits gives it too. -/
def Obligations.DecodeOfEncodeGivesTheInstruction : Prop :=
  ∀ i : Instr, i.wellFormed = true → decode (encode i) = .ok i ∧ decodeTableWord 16 (encode i).toNat = some i

/-- The other direction: a word that decodes is the word of a well-formed instruction, so no bit of a word is dropped. -/
def Obligations.EncodeOfDecodeGivesTheWord : Prop :=
  ∀ (w : InstrWord) (i : Instr), decode w = .ok i → i.wellFormed = true ∧ encode i = w

/-- R96: a word decodes by the row it matches, no word matches two rows, a word of no row is reserved. -/
def Obligations.DecodeFollowsTheUniqueRow : Prop :=
  (opTable.Pairwise fun a b => ∀ w : InstrWord, ¬(w &&& a.mask = a.value ∧ w &&& b.mask = b.value)) ∧
  ∀ w : InstrWord,
    (∀ r ∈ opTable, w &&& r.mask = r.value → decode w = .ok (r.build w)) ∧
    ((∀ r ∈ opTable, w &&& r.mask ≠ r.value) → decode w = .error (.reservedOpcode w))

/-- The five ranges of R108. -/
def isReservedWord (n : Nat) : Bool :=
  (decide (0x0002 ≤ n) && decide (n ≤ 0x0007)) || (decide (0x000C ≤ n) && decide (n ≤ 0x000F)) ||
    (decide (0x0040 ≤ n) && decide (n ≤ 0x0061)) || (decide (0x0068 ≤ n) && decide (n ≤ 0x007F)) ||
    (decide (0x0104 ≤ n) && decide (n ≤ 0x017F))

/-- R108: the reserved words are exactly these 192, and a step that fetches one is refused. -/
def Obligations.ReservedWordsAreExactlyThese192AndRefused : Prop :=
  (∀ w : InstrWord, isReservedWord w.toNat = true ↔ ∀ r ∈ opTable, w &&& r.mask ≠ r.value) ∧
  ((List.range (2 ^ 14)).filter isReservedWord).length = 192 ∧
  (∀ (s t : State) (w : InstrWord), envPhase s = .run t → t.pc.toNat < t.cfg.pmWords → t.prog.read t.pc.toNat = w →
    isReservedWord w.toNat = true → step s = .refused (.reservedOpcode w))

/-- R112 to R116: the syntax line of an instruction assembles to it at every address (CLRW with its don't-care bits 0); an omitted d is
d = 1; `BRA label` assembles exactly when the label is within the field's reach, and the BRA then goes to the label; `BRA $+k` has the
field k - 1. -/
def Obligations.SyntaxLinesStandForTheirInstructions : Prop :=
  (∀ (pc : ProgAddr) (i : Instr), i.wellFormed = true → (∀ x, i ≠ .clrw x) → assemble pc (asmLine i) = some i) ∧
  (∀ (pc : ProgAddr) (x : BitVec 2), assemble pc (asmLine (.clrw x)) = some (.clrw 0)) ∧
  (∀ (pc : ProgAddr) (m : Mnemonic) (f : FileAddr),
    assemble pc ⟨m, .fileDest f none⟩ = assemble pc ⟨m, .fileDest f (some .f)⟩) ∧
  (∀ (s : State) (a : ProgAddr),
    (-256 ≤ (a.toNat : Int) - (s.pc.toNat + 1) → (a.toNat : Int) - (s.pc.toNat + 1) ≤ 255 →
      ∃ k, assemble s.pc ⟨.bra, .label a⟩ = some (.bra k) ∧ exec (.bra k) s = .next { s with pc := a }) ∧
    ((a.toNat : Int) - (s.pc.toNat + 1) < -256 ∨ 255 < (a.toNat : Int) - (s.pc.toNat + 1) →
      assemble s.pc ⟨.bra, .label a⟩ = none)) ∧
  ∀ (pc : ProgAddr) (k : Int), inSigned9 (k - 1) = true → assemble pc ⟨.bra, .here k⟩ = some (.bra (k - 1))

/-! ## The machine step -/

/-- A STEP RUNS THE DECODED INSTRUCTION (R17, R236): when lines 1 to 4 of the machine step lead to a core step from `t`, the step is
`exec` of the instruction that stands at `t`'s pc; when they end the step, that is its outcome. In a quiet environment (no choice
pending, awake, no interrupt entry possible) `t` is the state itself but for the model's own counters: THE MODEL'S CHOICES are that an
empty list of choices is a quiet environment (assumption log 2), that `wdt` and `wdtPre` count one more period (assumption log 9) and
that `intWait` is 0 (assumption log 11). -/
def Obligations.StepRunsTheDecodedInstruction : Prop :=
  (∀ (s t : State) (i : Instr), envPhase s = .run t → t.pc.toNat < t.cfg.pmWords →
    decode (t.prog.read t.pc.toNat) = .ok i → step s = exec i t) ∧
  (∀ (s : State) (r : Result), envPhase s = .ends r → step s = r) ∧
  (∀ (s : State) (i : Instr), s.env = [] → s.sleeping = false → (s.gie = false ∨ s.intReq = false) →
    s.pc.toNat < s.cfg.pmWords → decode (s.prog.read s.pc.toNat) = .ok i →
    step s = exec i { s with wdt := s.wdt + 1, wdtPre := s.wdtPre + 1, intWait := 0 })

/-- R78: a fetch returns the word of program memory below PM_WORDS and is refused at or above it, and no instruction writes program
memory. -/
def Obligations.ProgramMemoryIsReadOnlyAndBounded : Prop :=
  (∀ (s : State) (a : ProgAddr),
    (a.toNat < s.cfg.pmWords → pmRead s a = .ok (s.prog.read a.toNat)) ∧
    (s.cfg.pmWords ≤ a.toNat → pmRead s a = .error (.fetchOutsideProgram a))) ∧
  (∀ s t : State, envPhase s = .run t → t.cfg.pmWords ≤ t.pc.toNat → step s = .refused (.fetchOutsideProgram t.pc)) ∧
  (∀ s t : State, step s = .next t → t.prog = s.prog ∧ t.cfg = s.cfg)

/-! ## Operands and memory -/

/-- R61, R63, R64: the data address of a file operand, and the redirection of INDF0 and INDF1, for reads and for writes, with the spec's
data map (R6: NBANKS and CoreRegMap at their defaults). -/
def Obligations.FileOperandAccess : Prop :=
  ∀ (s n : State) (f : FileAddr) (k : FlagKind) (v : Byte), hasSpecMap s.cfg → n.cfg = s.cfg →
    (s.fileAddr f).toNat = 128 * s.bsr.toNat + f.toNat ∧
    (f = 0x00 → fread s f = indRead s s.fsr0 ∧ fwrite s n f k v = indWrite n s.fsr0 k v) ∧
    (f = 0x01 → fread s f = indRead s s.fsr1 ∧ fwrite s n f k v = indWrite n s.fsr1 k v) ∧
    (f ≠ 0x00 → f ≠ 0x01 →
      fread s f = memRead s (s.fileAddr f) ∧ fwrite s n f k v = memWrite n (s.fileAddr f) k v)

/-- `Linear(p)` on integers (R76): the block of 80 bytes and the place in it. -/
def linearData (p : Nat) : DataAddr := BitVec.ofNat 12 (128 * ((p - 0x2000) / 80) + 0x20 + (p - 0x2000) % 80)

/-- R73, R76, R77: reading through an FSR value, region by region; where the INDF addresses are is CoreRegMap's (R6, R50). -/
def Obligations.IndirectReadByRegion : Prop :=
  ∀ (s : State) (p : Ptr),
    (0x8000 ≤ p.toNat → (p.setWidth 15).toNat < s.cfg.pmWords →
      indRead s p = .ok ((s.prog.read (p.setWidth 15).toNat).setWidth 8)) ∧
    (0x8000 ≤ p.toNat → s.cfg.pmWords ≤ (p.setWidth 15).toNat →
      indRead s p = .error (.readOutsideProgram (p.setWidth 15))) ∧
    (0x2000 ≤ p.toNat → p.toNat ≤ 0x29AF → indRead s p = memRead s (linearData p.toNat)) ∧
    (hasSpecMap s.cfg → p.toNat ≤ 0x0FFF → p.toNat % 128 ≤ 0x01 → indRead s p = .ok 0x00) ∧
    (p.toNat ≤ 0x0FFF → 0x02 ≤ p.toNat % 128 → indRead s p = memRead s (BitVec.ofNat 12 p.toNat)) ∧
    ((0x1000 ≤ p.toNat ∧ p.toNat ≤ 0x1FFF) ∨ (0x29B0 ≤ p.toNat ∧ p.toNat ≤ 0x7FFF) →
      indRead s p = .error (.reservedFsrAddress p))

/-- R74, R76, R77: writing through an FSR value, region by region; the flags of an instruction whose write does not occur are still
updated, as an INCF of INDF0 on program memory shows. -/
def Obligations.IndirectWriteByRegion : Prop :=
  (∀ (s : State) (p : Ptr) (k : FlagKind) (v : Byte),
    (0x8000 ≤ p.toNat → indWrite s p k v = .ok s) ∧
    (0x2000 ≤ p.toNat → p.toNat ≤ 0x29AF → indWrite s p k v = memWrite s (linearData p.toNat) k v) ∧
    (hasSpecMap s.cfg → p.toNat ≤ 0x0FFF → p.toNat % 128 ≤ 0x01 → indWrite s p k v = .ok s) ∧
    (p.toNat ≤ 0x0FFF → 0x02 ≤ p.toNat % 128 → indWrite s p k v = memWrite s (BitVec.ofNat 12 p.toNat) k v) ∧
    ((0x1000 ≤ p.toNat ∧ p.toNat ≤ 0x1FFF) ∨ (0x29B0 ≤ p.toNat ∧ p.toNat ≤ 0x7FFF) →
      indWrite s p k v = .error (.reservedFsrAddress p))) ∧
  (∀ (s : State) (v : Byte), hasSpecMap s.cfg → 0x8000 ≤ s.fsr0.toNat → fread s 0x00 = .ok v →
    exec (.incf 0x00 .f) s = .next { s with pc := pcPlus s 1, z := decide (v = 0xFF) })

/-- R50 (with R54): what the twelve core registers read as and what writing them does, in every bank, with CoreRegMap and NBANKS at
their defaults (R6; `CoreRegMap` itself is a field of the configuration). `n` is the state the write is
done on. STATUS is written by an instruction with an empty Status Affected list here. -/
def Obligations.CoreRegistersOfEveryBank : Prop :=
  ∀ (s n : State) (v : Byte), hasSpecMap s.cfg → n.cfg = s.cfg →
    fread s 0x00 = indRead s s.fsr0 ∧ fwrite s n 0x00 .noFlags v = indWrite n s.fsr0 .noFlags v ∧
    fread s 0x01 = indRead s s.fsr1 ∧ fwrite s n 0x01 .noFlags v = indWrite n s.fsr1 .noFlags v ∧
    fread s 0x02 = .ok (BitVec.ofNat 8 (s.pc.toNat + 1)) ∧
    fwrite s n 0x02 .noFlags v = .ok { n with pc := BitVec.ofNat 15 (256 * n.pclath.toNat + v.toNat) } ∧
    fread s 0x03 =
      .ok (BitVec.ofNat 8 (16 * s.nTO.toNat + 8 * s.nPD.toNat + 4 * s.z.toNat + 2 * s.dc.toNat + s.c.toNat)) ∧
    fwrite s n 0x03 .noFlags v =
      .ok { n with c := decide (v.toNat % 2 = 1), dc := decide (v.toNat / 2 % 2 = 1), z := decide (v.toNat / 4 % 2 = 1) } ∧
    fread s 0x04 = .ok (BitVec.ofNat 8 s.fsr0.toNat) ∧
    fwrite s n 0x04 .noFlags v = .ok { n with fsr0 := BitVec.ofNat 16 (n.fsr0.toNat / 256 * 256 + v.toNat) } ∧
    fread s 0x05 = .ok (BitVec.ofNat 8 (s.fsr0.toNat / 256)) ∧
    fwrite s n 0x05 .noFlags v = .ok { n with fsr0 := BitVec.ofNat 16 (256 * v.toNat + n.fsr0.toNat % 256) } ∧
    fread s 0x06 = .ok (BitVec.ofNat 8 s.fsr1.toNat) ∧
    fwrite s n 0x06 .noFlags v = .ok { n with fsr1 := BitVec.ofNat 16 (n.fsr1.toNat / 256 * 256 + v.toNat) } ∧
    fread s 0x07 = .ok (BitVec.ofNat 8 (s.fsr1.toNat / 256)) ∧
    fwrite s n 0x07 .noFlags v = .ok { n with fsr1 := BitVec.ofNat 16 (256 * v.toNat + n.fsr1.toNat % 256) } ∧
    fread s 0x08 = .ok (BitVec.ofNat 8 s.bsr.toNat) ∧
    fwrite s n 0x08 .noFlags v = .ok { n with bsr := BitVec.ofNat 5 v.toNat } ∧
    fread s 0x09 = .ok s.w ∧ fwrite s n 0x09 .noFlags v = .ok { n with w := v } ∧
    fread s 0x0A = .ok (BitVec.ofNat 8 s.pclath.toNat) ∧
    fwrite s n 0x0A .noFlags v = .ok { n with pclath := BitVec.ofNat 7 v.toNat } ∧
    fread s 0x0B = .ok (BitVec.ofNat 8 (128 * s.gie.toNat + s.intcon.toNat)) ∧
    fwrite s n 0x0B .noFlags v =
      .ok { n with
        gie := decide (0x80 ≤ v.toNat)
        intcon := BitVec.ofNat 7 (v.toNat / 2 % 64 * 2 + n.intcon.toNat % 2) }

/-- R35: writes to STATUS in every bank. By an instruction that affects no flag the three flags take the written bits; by one that
affects all three the data is not written; by one that affects some of them each flag outside its list takes the written bit or keeps
its value: which of the two is a free value (the model's choice, assumption log 8, where the spec refuses). So CLRF STATUS runs: Z is
1, nTO and nPD keep their values, C and DC are 0 or what they were. -/
def Obligations.StatusWritesByFlagList : Prop :=
  (∀ s : State, hasSpecMap s.cfg → ∃ c dc : Bool, (c = false ∨ c = s.c) ∧ (dc = false ∨ dc = s.dc) ∧
    exec (.clrf 0x03) s =
      .next { s with pc := pcPlus s 1, c := c, dc := dc, z := true, statusPicks := s.statusPicks + 1 }) ∧
  ∀ (n : State) (a : DataAddr) (v : Byte), hasSpecMap n.cfg → a.toNat % 128 = 0x03 →
    memWrite n a .noFlags v = .ok { n with c := v.getLsbD 0, dc := v.getLsbD 1, z := v.getLsbD 2 } ∧
    memWrite n a .allFlags v = .ok n ∧
    ∃ c dc z : Bool, (c = v.getLsbD 0 ∨ c = n.c) ∧ (dc = v.getLsbD 1 ∨ dc = n.dc) ∧ (z = v.getLsbD 2 ∨ z = n.z) ∧
      memWrite n a .someFlags v = .ok { n with c := c, dc := dc, z := z, statusPicks := n.statusPicks + 1 }

/-- The low byte of the address of the next instruction, on integers. -/
def nextLow (s : State) : Nat := (s.pc.toNat + 1) % 256

/-- R54: a read of PCL gives the low byte of the next instruction's address, a write to PCL jumps to PCLATH ++ v and the flags are
written as usual (ADDWF PCL, the computed jump), and a skip instruction bound for PCL is refused. -/
def Obligations.PclReadsWritesAndComputedJump : Prop :=
  ∀ s : State, hasSpecMap s.cfg →
    fread s 0x02 = .ok (BitVec.ofNat 8 (nextLow s)) ∧
    (∀ (n : State) (k : FlagKind) (v : Byte), n.cfg = s.cfg →
      fwrite s n 0x02 k v = .ok { n with pc := BitVec.ofNat 15 (256 * n.pclath.toNat + v.toNat) }) ∧
    exec (.addwf 0x02 .f) s =
      .next { s with
        pc := BitVec.ofNat 15 (256 * s.pclath.toNat + (s.w.toNat + nextLow s) % 256)
        c := decide (256 ≤ s.w.toNat + nextLow s)
        dc := decide (16 ≤ s.w.toNat % 16 + nextLow s % 16)
        z := decide ((s.w.toNat + nextLow s) % 256 = 0) } ∧
    cycles (.addwf 0x02 .f) s = 2 ∧
    exec (.decfsz 0x02 .f) s = .refused .skipWritesPcl ∧ exec (.incfsz 0x02 .f) s = .refused .skipWritesPcl

/-- R38, R39, R40, R47: the special function registers outside the core block read and write as described, through any access to their
data address, in a configuration with all banks (R6). THE MODEL'S READINGS: that the absent bits of STATUS_SHAD, BSR_SHAD and
PCLATH_SHAD read 0 and drop writes is DEDUCED (assumption log 23; R47 gives widths only), and `unwrittenShadows`, from which a write
takes the register out, is the model's own field (assumption log 5). -/
def Obligations.SpecialRegistersReadAndWrite : Prop :=
  ∀ (s : State) (k : FlagKind) (v : Byte), s.cfg.nbanks = 32 →
    memRead s 0x08C = .ok ((s.trisA &&& s.cfg.trisAMask.implemented) ||| s.cfg.trisAMask.readsOne) ∧
    memRead s 0x08D = .ok ((s.trisB &&& s.cfg.trisBMask.implemented) ||| s.cfg.trisBMask.readsOne) ∧
    memRead s 0x08E = .ok ((s.trisC &&& s.cfg.trisCMask.implemented) ||| s.cfg.trisCMask.readsOne) ∧
    memWrite s 0x08C k v = .ok { s with trisA := v } ∧ memWrite s 0x08D k v = .ok { s with trisB := v } ∧
    memWrite s 0x08E k v = .ok { s with trisC := v } ∧
    memRead s 0x095 = .ok s.optionReg ∧ memWrite s 0x095 k v = .ok { s with optionReg := v } ∧
    memRead s 0x096 =
      .ok (BitVec.ofNat 8 (128 * s.pcon.stkovf.toNat + 64 * s.pcon.stkunf.toNat + 16 * s.pcon.nRWDT.toNat +
        8 * s.pcon.nRMCLR.toNat + 4 * s.pcon.nRI.toNat + 2 * s.pcon.nPOR.toNat + s.pcon.nBOR.toNat)) ∧
    memWrite s 0x096 k v =
      .ok { s with
        pcon :=
          { stkovf := v.getLsbD 7, stkunf := v.getLsbD 6, nRWDT := v.getLsbD 4, nRMCLR := v.getLsbD 3, nRI := v.getLsbD 2
            nPOR := v.getLsbD 1, nBOR := v.getLsbD 0 } } ∧
    memRead s 0xFE4 = .ok (BitVec.ofNat 8 s.statusShad.toNat) ∧
    memWrite s 0xFE4 k v =
      .ok { s with
        statusShad := BitVec.ofNat 3 v.toNat
        unwrittenShadows := s.unwrittenShadows.filter (· ≠ .status) } ∧
    memRead s 0xFE5 = .ok s.wShad ∧ memWrite s 0xFE5 k v =
      .ok { s with
        wShad := v
        unwrittenShadows := s.unwrittenShadows.filter (· ≠ .wreg) } ∧
    memRead s 0xFE6 = .ok (BitVec.ofNat 8 s.bsrShad.toNat) ∧
    memWrite s 0xFE6 k v =
      .ok { s with
        bsrShad := BitVec.ofNat 5 v.toNat
        unwrittenShadows := s.unwrittenShadows.filter (· ≠ .bsr) } ∧
    memRead s 0xFE7 = .ok (BitVec.ofNat 8 s.pclathShad.toNat) ∧
    memWrite s 0xFE7 k v =
      .ok { s with
        pclathShad := BitVec.ofNat 7 v.toNat
        unwrittenShadows := s.unwrittenShadows.filter (· ≠ .pclath) } ∧
    memRead s 0xFE8 = .ok (BitVec.ofNat 8 s.fsr0Shad.toNat) ∧
    memWrite s 0xFE8 k v =
      .ok { s with
        fsr0Shad := BitVec.ofNat 16 (s.fsr0Shad.toNat / 256 * 256 + v.toNat)
        unwrittenShadows := s.unwrittenShadows.filter (· ≠ .fsr0l) } ∧
    memRead s 0xFE9 = .ok (BitVec.ofNat 8 (s.fsr0Shad.toNat / 256)) ∧
    memWrite s 0xFE9 k v =
      .ok { s with
        fsr0Shad := BitVec.ofNat 16 (256 * v.toNat + s.fsr0Shad.toNat % 256)
        unwrittenShadows := s.unwrittenShadows.filter (· ≠ .fsr0h) } ∧
    memRead s 0xFEA = .ok (BitVec.ofNat 8 s.fsr1Shad.toNat) ∧
    memWrite s 0xFEA k v =
      .ok { s with
        fsr1Shad := BitVec.ofNat 16 (s.fsr1Shad.toNat / 256 * 256 + v.toNat)
        unwrittenShadows := s.unwrittenShadows.filter (· ≠ .fsr1l) } ∧
    memRead s 0xFEB = .ok (BitVec.ofNat 8 (s.fsr1Shad.toNat / 256)) ∧
    memWrite s 0xFEB k v =
      .ok { s with
        fsr1Shad := BitVec.ofNat 16 (256 * v.toNat + s.fsr1Shad.toNat % 256)
        unwrittenShadows := s.unwrittenShadows.filter (· ≠ .fsr1h) }

/-- R43: STKPTR, TOSL and TOSH show the stack, an empty stack as STKPTR = 0x1F, and refuse a software write. THE MODEL'S READINGS: what
TOSL and TOSH show on an empty stack, slot 15, rests on the field of assumption log 6, and the whole-byte reads rest on STKPTR bits 7:5
and TOSH bit 7 reading 0 (DEDUCED, assumption log 23). -/
def Obligations.StackRegistersShowTheStack : Prop :=
  ∀ (s : State) (k : FlagKind) (v : Byte), s.cfg.nbanks = 32 →
    (s.stack = [] → memRead s 0xFED = .ok 0x1F ∧ memRead s 0xFEE = .ok (BitVec.ofNat 8 s.slot15.toNat) ∧
      memRead s 0xFEF = .ok (BitVec.ofNat 8 (s.slot15.toNat / 256))) ∧
    (∀ (r : ProgAddr) (rest : List ProgAddr), s.stack = r :: rest → s.stack.length ≤ 16 →
      memRead s 0xFED = .ok (BitVec.ofNat 8 rest.length) ∧ memRead s 0xFEE = .ok (BitVec.ofNat 8 r.toNat) ∧
      memRead s 0xFEF = .ok (BitVec.ofNat 8 (r.toNat / 256))) ∧
    memWrite s 0xFED k v = .error .stackRegisterWrite ∧ memWrite s 0xFEE k v = .error .stackRegisterWrite ∧
    memWrite s 0xFEF k v = .error .stackRegisterWrite

/-- The data addresses of the special function registers that R66 defines. -/
def definedSfr : List DataAddr :=
  [0x08C, 0x08D, 0x08E, 0x095, 0x096, 0xFE4, 0xFE5, 0xFE6, 0xFE7, 0xFE8, 0xFE9, 0xFEA, 0xFEB, 0xFED, 0xFEE, 0xFEF]

/-- The special function register addresses: offsets 0x0C to 0x1F of every bank, all of bank 31 from there to 0x6F, offsets 0x20 to 0x2F
of bank 30 (R62, R65, R66). -/
def isSfrAddress (a : DataAddr) : Prop :=
  (0x0C ≤ a.toNat % 128 ∧ a.toNat % 128 ≤ 0x1F) ∨ (0xF8C ≤ a.toNat ∧ a.toNat ≤ 0xFEF) ∨ (0xF20 ≤ a.toNat ∧ a.toNat ≤ 0xF2F)

/-- R65, R66: a read or a write of any other special function register address is refused, all of bank 31 below offset 0x70 among them,
unless SfrModel gives the address a meaning (R6; assumption log 16). -/
def Obligations.UnmodelledRegistersAreRefused : Prop :=
  ∀ (s : State) (a : DataAddr) (k : FlagKind) (v : Byte), s.cfg.nbanks = 32 → isSfrAddress a → a ∉ definedSfr →
    a ∉ s.cfg.sfrModel →
    memRead s a = .error (.peripheralSfr a) ∧ memWrite s a k v = .error (.peripheralSfr a)

/-- The address holds a byte of storage of this configuration: common RAM (R69), banked RAM (R68), or a peripheral register to which
SfrModel gives the meaning of storage (R66; the model's choice, assumption log 16). `ramKey` names its cell: one for the 32 addresses of
a common byte (R69). -/
def isRam (s : State) (a : DataAddr) : Prop :=
  (0x70 ≤ a.toNat % 128 ∨ (0x20 ≤ a.toNat % 128 ∧ hasGpr s.cfg a.toNat = true ∧ ¬isSfrAddress a)) ∨
    (isSfrAddress a ∧ a ∉ definedSfr ∧ a ∈ s.cfg.sfrModel)

/-- The cell of a RAM address (R69). -/
def ramKey (a : DataAddr) : Nat := if 0x70 ≤ a.toNat % 128 then a.toNat % 128 else a.toNat

/-- R48, R68, R69: a RAM byte holds what was last written to it, at every address that maps the same cell, and no other RAM byte and
no other state changes. The same of the bytes of SfrModel, which is the model's choice (assumption log 16; R66 leaves it to the
parameter). -/
def Obligations.RamHoldsWhatWasLastWritten : Prop :=
  ∀ (s : State) (a b : DataAddr) (k : FlagKind) (v : Byte), s.cfg.nbanks = 32 → isRam s a → isRam s b →
    ∃ t, memWrite s a k v = .ok t ∧ t = { s with ram := t.ram } ∧
      (ramKey b = ramKey a → memRead t b = .ok v) ∧ (ramKey b ≠ ramKey a → memRead t b = memRead s b)

/-- R67: an unimplemented location reads 0 and ignores writes: an offset 0x20 to 0x6F without RAM that R66 does not give to a
peripheral. -/
def Obligations.UnimplementedLocationsReadZero : Prop :=
  ∀ (s : State) (a : DataAddr) (k : FlagKind) (v : Byte), 0x20 ≤ a.toNat % 128 → a.toNat % 128 ≤ 0x6F →
    s.cfg.nbanks = 32 → hasGpr s.cfg a.toNat = false → ¬isSfrAddress a →
    memRead s a = .ok 0x00 ∧ memWrite s a k v = .ok s

/-! ## Byte-oriented file register operations -/

/-- R125, R126: ADDWF and ADDWFC. -/
def Obligations.AddwfAndAddwfc : Prop :=
  FileOpRule .addwf 0b000111#6 .allFlags (fun s v => s.w + v)
    (fun s v t => { t with
      c := decide (256 ≤ s.w.toNat + v.toNat)
      dc := decide (16 ≤ s.w.toNat % 16 + v.toNat % 16)
      z := decide (s.w + v = 0) }) ∧
  FileOpRule .addwfc 0b111101#6 .allFlags (fun s v => BitVec.ofNat 8 (s.w.toNat + v.toNat + s.c.toNat))
    (fun s v t => { t with
      c := decide (256 ≤ s.w.toNat + v.toNat + s.c.toNat)
      dc := decide (16 ≤ s.w.toNat % 16 + v.toNat % 16 + s.c.toNat)
      z := decide ((s.w.toNat + v.toNat + s.c.toNat) % 256 = 0) })

/-- R141, R142: SUBWF and SUBWFB. C and DC are the inverted borrows; SUBWFB subtracts one more when the incoming C is 0. -/
def Obligations.SubwfAndSubwfb : Prop :=
  FileOpRule .subwf 0b000010#6 .allFlags (fun s v => v - s.w)
    (fun s v t => { t with
      c := decide (s.w.toNat ≤ v.toNat)
      dc := decide (s.w.toNat % 16 ≤ v.toNat % 16)
      z := decide (v = s.w) }) ∧
  FileOpRule .subwfb 0b111011#6 .allFlags (fun s v => v - s.w - (if s.c then 0 else 1))
    (fun s v t => { t with
      c := decide (s.w.toNat + (if s.c then 0 else 1) ≤ v.toNat)
      dc := decide (s.w.toNat % 16 + (if s.c then 0 else 1) ≤ v.toNat % 16)
      z := decide (v - s.w - (if s.c then 0 else 1) = 0) })

/-- R127, R133, R136, R144: ANDWF, COMF, IORWF, XORWF; Z only. -/
def Obligations.LogicalFileOperations : Prop :=
  FileOpRule .andwf 0b000101#6 .someFlags (fun s v => s.w &&& v) (fun s v t => { t with z := decide (s.w &&& v = 0) }) ∧
  FileOpRule .comf 0b001001#6 .someFlags (fun _ v => 0xFF - v) (fun _ v t => { t with z := decide (v = 0xFF) }) ∧
  FileOpRule .iorwf 0b000100#6 .someFlags (fun s v => s.w ||| v)
    (fun s v t => { t with z := decide (s.w = 0 ∧ v = 0) }) ∧
  FileOpRule .xorwf 0b000110#6 .someFlags (fun s v => s.w ^^^ v) (fun s v t => { t with z := decide (s.w = v) })

/-- R134, R135, R137: DECF, INCF, MOVF; Z only, so 0x00 - 1 and 0xFF + 1 leave C alone. -/
def Obligations.IncrementDecrementMoveFile : Prop :=
  FileOpRule .decf 0b000011#6 .someFlags (fun _ v => v - 1) (fun _ v t => { t with z := decide (v = 0x01) }) ∧
  FileOpRule .incf 0b001010#6 .someFlags (fun _ v => v + 1) (fun _ v t => { t with z := decide (v = 0xFF) }) ∧
  FileOpRule .movf 0b001000#6 .someFlags (fun _ v => v) (fun _ v t => { t with z := decide (v = 0x00) })

/-- R128, R129, R130, R139, R140, R143: ASRF, LSLF, LSRF write C and Z and do not use the old C; RLF and RRF rotate nine bits and
write C only; SWAPF exchanges the nibbles and writes no flag. -/
def Obligations.ShiftRotateAndSwap : Prop :=
  FileOpRule .asrf 0b110111#6 .someFlags (fun _ v => v.sshiftRight 1)
    (fun _ v t => { t with c := decide (v.toNat % 2 = 1), z := decide (v.toNat ≤ 1) }) ∧
  FileOpRule .lslf 0b110101#6 .someFlags (fun _ v => v <<< 1)
    (fun _ v t => { t with c := decide (128 ≤ v.toNat), z := decide (v.toNat % 128 = 0) }) ∧
  FileOpRule .lsrf 0b110110#6 .someFlags (fun _ v => v >>> 1)
    (fun _ v t => { t with c := decide (v.toNat % 2 = 1), z := decide (v.toNat ≤ 1) }) ∧
  FileOpRule .rlf 0b001101#6 .someFlags (fun s v => BitVec.ofNat 8 (2 * v.toNat + s.c.toNat))
    (fun _ v t => { t with c := decide (128 ≤ v.toNat) }) ∧
  FileOpRule .rrf 0b001100#6 .someFlags (fun s v => BitVec.ofNat 8 (128 * s.c.toNat + v.toNat / 2))
    (fun _ v t => { t with c := decide (v.toNat % 2 = 1) }) ∧
  FileOpRule .swapf 0b001110#6 .noFlags (fun _ v => BitVec.ofNat 8 (v.toNat % 16 * 16 + v.toNat / 16)) (fun _ _ t => t)

/-- RRF undoes RLF, on W through its file address and in every bank (R22, R139, R140), with the spec's data map (R6). -/
def Obligations.RotateRightUndoesRotateLeft : Prop :=
  ∀ s : State, hasSpecMap s.cfg → ∃ t u, exec (.rlf 0x09 .f) s = .next t ∧ exec (.rrf 0x09 .f) t = .next u ∧
    u = { s with pc := pcPlus s 2 }

/-- R131, R138: CLRF writes 0 and sets Z, MOVWF writes W and no flag; neither reads the register. -/
def Obligations.ClrfAndMovwf : Prop :=
  StoreRule .clrf 0b0000011#7 .someFlags (fun _ => 0x00) (fun t => { t with z := true }) ∧
  StoreRule .movwf 0b0000001#7 .noFlags (fun s => s.w) (fun t => t)

/-! ## Skips and bits -/

/-- R151, R152: DECFSZ and INCFSZ. -/
def Obligations.DecfszAndIncfsz : Prop :=
  SkipRule .decfsz 0b001011#6 (fun v => v - 1) ∧ SkipRule .incfsz 0b001111#6 (fun v => v + 1)

/-- R155, R156, R157: BCF and BSF change one bit, computed on integers: the bit's weight is taken away or added. -/
def Obligations.BcfAndBsf : Prop :=
  BitOpRule .bcf 0b0100#4 (fun v b => BitVec.ofNat 8 (v.toNat - v.toNat / 2 ^ b.toNat % 2 * 2 ^ b.toNat)) ∧
  BitOpRule .bsf 0b0101#4 (fun v b => BitVec.ofNat 8 (v.toNat + (1 - v.toNat / 2 ^ b.toNat % 2) * 2 ^ b.toNat))

/-- R161, R162: BTFSC and BTFSS. -/
def Obligations.BtfscAndBtfss : Prop := BitSkipRule .btfsc 0b0110#4 0 ∧ BitSkipRule .btfss 0b0111#4 1

/-! ## Literal operations -/

/-- R166, R172: ADDLW and SUBLW; the literal is the minuend. -/
def Obligations.AddlwAndSublw : Prop :=
  ∀ (k : Byte) (s : State),
    decode (0b111110#6 ++ k) = .ok (.addlw k) ∧ decode (0b111100#6 ++ k) = .ok (.sublw k) ∧
    cycles (.addlw k) s = 1 ∧ cycles (.sublw k) s = 1 ∧
    exec (.addlw k) s =
      .next { s with
        pc := pcPlus s 1
        w := s.w + k
        c := decide (256 ≤ s.w.toNat + k.toNat)
        dc := decide (16 ≤ s.w.toNat % 16 + k.toNat % 16)
        z := decide (s.w + k = 0) } ∧
    exec (.sublw k) s =
      .next { s with
        pc := pcPlus s 1
        w := k - s.w
        c := decide (s.w.toNat ≤ k.toNat)
        dc := decide (s.w.toNat % 16 ≤ k.toNat % 16)
        z := decide (s.w = k) }

/-- R132, R167 to R171, R173: CLRW, ANDLW, IORLW, MOVLB, MOVLP, MOVLW, XORLW; MOVLB and MOVLP write the bank and the page latch and
nothing else. -/
def Obligations.LogicalAndMoveLiteral : Prop :=
  ∀ (k : Byte) (x : BitVec 2) (b : BitVec 5) (p : BitVec 7) (s : State),
    decode (0b000000001#9 ++ b) = .ok (.movlb b) ∧ decode (0b1100011#7 ++ p) = .ok (.movlp p) ∧
    cycles (.movlb b) s = 1 ∧ cycles (.movlp p) s = 1 ∧
    exec (.movlb b) s = .next { s with pc := pcPlus s 1, bsr := b } ∧
    exec (.movlp p) s = .next { s with pc := pcPlus s 1, pclath := p } ∧
    decode (0b000001000000#12 ++ x) = .ok (.clrw x) ∧ decode (0b111001#6 ++ k) = .ok (.andlw k) ∧
    decode (0b111000#6 ++ k) = .ok (.iorlw k) ∧ decode (0b110000#6 ++ k) = .ok (.movlw k) ∧
    decode (0b111010#6 ++ k) = .ok (.xorlw k) ∧
    cycles (.clrw x) s = 1 ∧ cycles (.andlw k) s = 1 ∧ cycles (.iorlw k) s = 1 ∧ cycles (.movlw k) s = 1 ∧
    cycles (.xorlw k) s = 1 ∧
    exec (.clrw x) s = .next { s with pc := pcPlus s 1, w := 0, z := true } ∧
    exec (.andlw k) s = .next { s with pc := pcPlus s 1, w := s.w &&& k, z := decide (s.w &&& k = 0) } ∧
    exec (.iorlw k) s = .next { s with pc := pcPlus s 1, w := s.w ||| k, z := decide (s.w = 0 ∧ k = 0) } ∧
    exec (.movlw k) s = .next { s with pc := pcPlus s 1, w := k } ∧
    exec (.xorlw k) s = .next { s with pc := pcPlus s 1, w := s.w ^^^ k, z := decide (s.w = k) }

/-! ## Control operations -/

/-- R183, R184, R187: the targets of BRA, BRW and GOTO on integers, modulo 2^15. -/
def Obligations.BranchTargets : Prop :=
  ∀ (k : Int) (a : BitVec 11) (s : State),
    (inSigned9 k = true → decode (0b11001#5 ++ BitVec.ofInt 9 k) = .ok (.bra k)) ∧
    decode 0x000B#14 = .ok .brw ∧ decode (0b101#3 ++ a) = .ok (.goto a) ∧
    cycles (.bra k) s = 2 ∧ cycles .brw s = 2 ∧ cycles (.goto a) s = 2 ∧
    exec (.bra k) s = .next { s with pc := pcPlus s (1 + k) } ∧
    exec .brw s = .next { s with pc := pcPlus s (1 + s.w.toNat) } ∧
    exec (.goto a) s = .next { s with pc := BitVec.ofNat 15 (s.pclath.toNat / 8 * 2048 + a.toNat) }

/-- R185, R186 (with R41): CALL and CALLW on a stack with room. THE MODEL'S OWN FIELD `slot15` follows the stack's 16th slot: that a
push into it sets the field is DEDUCED from R43 (assumption log 6). -/
def Obligations.CallsPushTheReturnAddress : Prop :=
  ∀ (k : BitVec 11) (s : State),
    decode (0b100#3 ++ k) = .ok (.call k) ∧ decode 0x000A#14 = .ok .callw ∧
    cycles (.call k) s = 2 ∧ cycles .callw s = 2 ∧
    (s.stack.length < s.cfg.stackDepth →
      exec (.call k) s =
        .next { s with
          stack := pcPlus s 1 :: s.stack
          slot15 := if s.stack.length = 15 then pcPlus s 1 else s.slot15
          pc := BitVec.ofNat 15 (s.pclath.toNat / 8 * 2048 + k.toNat) } ∧
      exec .callw s =
        .next { s with
          stack := pcPlus s 1 :: s.stack
          slot15 := if s.stack.length = 15 then pcPlus s 1 else s.slot15
          pc := BitVec.ofNat 15 (256 * s.pclath.toNat + s.w.toNat) })

/-- R188, R189 (with R42): RETURN and RETLW from a stack with entries. -/
def Obligations.ReturnsPopTheReturnAddress : Prop :=
  decode 0x0008#14 = .ok .ret ∧
  ∀ (k : Byte) (s : State) (r : ProgAddr) (rest : List ProgAddr),
    decode (0b110100#6 ++ k) = .ok (.retlw k) ∧ cycles .ret s = 2 ∧ cycles (.retlw k) s = 2 ∧
    (s.stack = r :: rest →
      exec .ret s = .next { s with stack := rest, pc := r } ∧
      exec (.retlw k) s = .next { s with stack := rest, pc := r, w := k })

/-- R190 (with R182, D21, U11): RETFIE from a stack with entries, with and without the context restore, and its refusal where shadow
registers hold no value. THE MODEL'S OWN: the field `unwrittenShadows`, which says which of them hold none, and a configuration that
restores all the same (`UnknownShadows.useValue`; assumption log 5). -/
def Obligations.RetfieReturnsAndRestores : Prop :=
  decode 0x0009#14 = .ok .retfie ∧
  ∀ (s : State) (r : ProgAddr) (rest : List ProgAddr), s.stack = r :: rest →
    cycles .retfie s = 2 ∧
    (s.cfg.autoContext = false → exec .retfie s = .next { s with stack := rest, pc := r, gie := true }) ∧
    (s.cfg.autoContext = true → s.cfg.unknownShadows = .useValue ∨ s.unwrittenShadows = [] →
      exec .retfie s =
        .next { s with
          stack := rest, pc := r, gie := true, w := s.wShad, c := s.statusShad.getLsbD 0, dc := s.statusShad.getLsbD 1
          z := s.statusShad.getLsbD 2, bsr := s.bsrShad, pclath := s.pclathShad, fsr0 := s.fsr0Shad, fsr1 := s.fsr1Shad }) ∧
    (s.cfg.autoContext = true → s.cfg.unknownShadows = .refuse → s.unwrittenShadows ≠ [] →
      exec .retfie s = .refused .unknownShadowRegisters)

/-- R44: a push on a full stack and a pop from an empty one reset the device with STVREN, and are refused without; the push of
interrupt entry (R235) too. That RETLW has written W when its pop underflows is R189's order, read by the model as kept through the reset
(DEDUCED, assumption log 21). -/
def Obligations.StackOverflowAndUnderflow : Prop :=
  (∀ (s : State) (k : BitVec 11), s.cfg.stackDepth ≤ s.stack.length →
    (s.cfg.stvren = true →
      exec (.call k) s = .next (deviceReset .stackOverflow s) ∧ exec .callw s = .next (deviceReset .stackOverflow s) ∧
      interruptEntry s = .error (.next (deviceReset .stackOverflow s))) ∧
    (s.cfg.stvren = false →
      exec (.call k) s = .refused .stackOverflowUnguarded ∧ exec .callw s = .refused .stackOverflowUnguarded ∧
      interruptEntry s = .error (.refused .stackOverflowUnguarded))) ∧
  (∀ (s : State) (k : Byte), s.stack = [] →
    (s.cfg.stvren = true →
      exec .ret s = .next (deviceReset .stackUnderflow s) ∧ exec .retfie s = .next (deviceReset .stackUnderflow s) ∧
      exec (.retlw k) s = .next (deviceReset .stackUnderflow { s with w := k })) ∧
    (s.cfg.stvren = false →
      exec .ret s = .refused .stackUnderflowUnguarded ∧ exec .retfie s = .refused .stackUnderflowUnguarded ∧
      exec (.retlw k) s = .refused .stackUnderflowUnguarded))

/-- A return undoes a call (R181): pc is the word after the call, the stack is as before, PCLATH is neither saved nor restored.
The model's field `slot15` is left open (assumption log 6). -/
def Obligations.ReturnUndoesCall : Prop :=
  ∀ (s : State) (k : BitVec 11), s.stack.length < s.cfg.stackDepth →
    ∃ t u, exec (.call k) s = .next t ∧ exec .ret t = .next u ∧
      u = { s with pc := pcPlus s 1, slot15 := u.slot15 }

/-! ## Inherent operations -/

/-- R196, R197, R198, R201: CLRWDT, NOP, and OPTION and TRIS, which copy W whatever BSR holds; with BSR = 1 a MOVWF to the register's
file address has the same effect. -/
def Obligations.ClrwdtNopOptionTris : Prop :=
  decode 0x0064#14 = .ok .clrwdt ∧ decode 0x0000#14 = .ok .nop ∧ decode 0x0062#14 = .ok .option ∧
  decode 0x0065#14 = .ok .tris5 ∧ decode 0x0066#14 = .ok .tris6 ∧ decode 0x0067#14 = .ok .tris7 ∧
  ∀ s : State, cycles .clrwdt s = 1 ∧ cycles .nop s = 1 ∧ cycles .option s = 1 ∧ cycles .tris5 s = 1 ∧ cycles .tris6 s = 1 ∧
    cycles .tris7 s = 1 ∧
    exec .clrwdt s = .next { s with pc := pcPlus s 1, wdt := 0, wdtPre := 0, nTO := true, nPD := true } ∧
    exec .nop s = .next { s with pc := pcPlus s 1 } ∧
    exec .option s = .next { s with pc := pcPlus s 1, optionReg := s.w } ∧
    exec .tris5 s = .next { s with pc := pcPlus s 1, trisA := s.w } ∧
    exec .tris6 s = .next { s with pc := pcPlus s 1, trisB := s.w } ∧
    exec .tris7 s = .next { s with pc := pcPlus s 1, trisC := s.w } ∧
    (s.bsr = 1 → s.cfg.nbanks = 32 →
      exec (.movwf 0x15) s = exec .option s ∧ exec (.movwf 0x0C) s = exec .tris5 s ∧ exec (.movwf 0x0D) s = exec .tris6 s ∧
      exec (.movwf 0x0E) s = exec .tris7 s)

/-- R199: RESET clears nRI and resets the device, with ResetValues and RESET_VECTOR at their defaults (R6); the model's own counter
`intWait` is left open here, and that the bytes of SfrModel, which stand in `ram`, are kept is the model's choice (assumption log 16). -/
def Obligations.ResetInstruction : Prop :=
  decode 0x0001#14 = .ok .reset ∧
  ∀ s : State, cycles .reset s = 1 ∧ exec .reset s = .next (deviceReset .resetInstruction s) ∧
    (hasSpecReset s.cfg →
      exec .reset s =
        .next { s with
          pcon := { s.pcon with nRI := false }
          pc := 0x0000, bsr := 0, pclath := 0, gie := false, intcon := 0, optionReg := 0xFF, trisA := 0xFF, trisB := 0xFF
          trisC := 0xFF, stack := [], wdt := 0, wdtPre := 0, sleeping := false
          intWait := (deviceReset .resetInstruction s).intWait })

/-- R200: SLEEP, and its execution as a NOP when an enabled request is pending. -/
def Obligations.SleepEntersSleepModeOrActsAsNop : Prop :=
  decode 0x0063#14 = .ok .sleep ∧
  ∀ s : State, cycles .sleep s = 1 ∧
    (s.intReq = false →
      exec .sleep s =
        .next { s with pc := pcPlus s 1, wdt := 0, wdtPre := 0, nTO := true, nPD := false, sleeping := true }) ∧
    (s.intReq = true → exec .sleep s = .next { s with pc := pcPlus s 1 })

/-! ## C-compiler optimized operations -/

/-- `(p + k) mod 2^16` on integers (R210). -/
def ptrPlus (p : Ptr) (k : Int) : Ptr := BitVec.ofInt 16 (p.toNat + k)

/-- The state with FSR[n] set. -/
def withFsr (s : State) (n : FsrSel) (p : Ptr) : State :=
  match n with
  | .fsr0 => { s with fsr0 := p }
  | .fsr1 => { s with fsr1 := p }

/-- R212: ADDFSR wraps modulo 2^16 and touches nothing else. -/
def Obligations.AddfsrWraps : Prop :=
  ∀ (n : FsrSel) (k : Int) (s : State),
    (inSigned6 k = true → decode (0b1100010#7 ++ n.bit ++ BitVec.ofInt 6 k) = .ok (.addfsr n k)) ∧
    cycles (.addfsr n k) s = 1 ∧
    exec (.addfsr n k) s = .next (withFsr { s with pc := pcPlus s 1 } n (ptrPlus (s.fsr n) k))

/-- How far an `mm` form moves the pointer before the access and in all (R213, R215). -/
def modeBefore : FsrMode → Int
  | .preInc => 1
  | .preDec => -1
  | .postInc => 0
  | .postDec => 0

/-- The whole movement of the pointer in an `mm` form. -/
def modeTotal : FsrMode → Int
  | .preInc => 1
  | .preDec => -1
  | .postInc => 1
  | .postDec => -1

/-- R217: the effective address selects FSRnL or FSRnH of the same n in the traditional region. -/
def selfReference (n : FsrSel) (ea : Nat) : Prop :=
  ea ≤ 0x0FFF ∧
    match n with
    | .fsr0 => ea % 128 = 0x04 ∨ ea % 128 = 0x05
    | .fsr1 => ea % 128 = 0x06 ∨ ea % 128 = 0x07

/-- R213: MOVIW with modifier; where the bytes of FSR[n] are is CoreRegMap's (R6, R50), here the spec's. -/
def Obligations.MoviwWithModifier : Prop :=
  ∀ (n : FsrSel) (mm : FsrMode) (s : State), hasSpecMap s.cfg →
    decode (0b00000000010#11 ++ n.bit ++ mm.bits) = .ok (.moviwMode n mm) ∧
    let ea := ptrPlus (s.fsr n) (modeBefore mm)
    cycles (.moviwMode n mm) s = (if 0x8000 ≤ ea.toNat then 2 else 1) ∧
    (¬selfReference n ea.toNat → ∀ v, indRead s ea = .ok v →
      exec (.moviwMode n mm) s =
        .next (withFsr { s with pc := pcPlus s 1, w := v, z := decide (v = 0) } n (ptrPlus (s.fsr n) (modeTotal mm)))) ∧
    (¬selfReference n ea.toNat → ∀ e, indRead s ea = .error e → exec (.moviwMode n mm) s = .refused e) ∧
    (selfReference n ea.toNat → exec (.moviwMode n mm) s = .refused .modifiesOwnFsr)

/-- R214, R216: MOVIW and MOVWI indexed; the pointer is unchanged. -/
def Obligations.IndexedMoves : Prop :=
  ∀ (n : FsrSel) (k : Int) (s : State),
    (inSigned6 k = true →
      decode (0b1111110#7 ++ n.bit ++ BitVec.ofInt 6 k) = .ok (.moviwIndexed n k) ∧
      decode (0b1111111#7 ++ n.bit ++ BitVec.ofInt 6 k) = .ok (.movwiIndexed n k)) ∧
    let ea := ptrPlus (s.fsr n) k
    cycles (.moviwIndexed n k) s = (if 0x8000 ≤ ea.toNat then 2 else 1) ∧
    (∀ v, indRead s ea = .ok v →
      exec (.moviwIndexed n k) s = .next { s with pc := pcPlus s 1, w := v, z := decide (v = 0) }) ∧
    (∀ e, indRead s ea = .error e → exec (.moviwIndexed n k) s = .refused e) ∧
    (indLoc s.cfg ea ≠ .ok (.core .pcl) → cycles (.movwiIndexed n k) s = (if 0x8000 ≤ ea.toNat then 2 else 1)) ∧
    (indLoc s.cfg ea = .ok (.core .pcl) → cycles (.movwiIndexed n k) s = 2) ∧
    (∀ t, indWrite { s with pc := pcPlus s 1 } ea .noFlags s.w = .ok t → exec (.movwiIndexed n k) s = .next t) ∧
    (∀ e, indWrite { s with pc := pcPlus s 1 } ea .noFlags s.w = .error e → exec (.movwiIndexed n k) s = .refused e)

/-- R215: MOVWI with modifier; no flag, and the pointer moves even where nothing is written. The data map is the spec's, as for MOVIW. -/
def Obligations.MovwiWithModifier : Prop :=
  ∀ (n : FsrSel) (mm : FsrMode) (s : State), hasSpecMap s.cfg →
    decode (0b00000000011#11 ++ n.bit ++ mm.bits) = .ok (.movwiMode n mm) ∧
    let ea := ptrPlus (s.fsr n) (modeBefore mm)
    (indLoc s.cfg ea ≠ .ok (.core .pcl) → cycles (.movwiMode n mm) s = (if 0x8000 ≤ ea.toNat then 2 else 1)) ∧
    (indLoc s.cfg ea = .ok (.core .pcl) → cycles (.movwiMode n mm) s = 2) ∧
    (¬selfReference n ea.toNat → ∀ t, indWrite { s with pc := pcPlus s 1 } ea .noFlags s.w = .ok t →
      exec (.movwiMode n mm) s = .next (withFsr t n (ptrPlus (s.fsr n) (modeTotal mm)))) ∧
    (¬selfReference n ea.toNat → ∀ e, indWrite { s with pc := pcPlus s 1 } ea .noFlags s.w = .error e →
      exec (.movwiMode n mm) s = .refused e) ∧
    (selfReference n ea.toNat → exec (.movwiMode n mm) s = .refused .modifiesOwnFsr)

/-! ## Arithmetic across bytes -/

/-- SUBWF on the low bytes and SUBWFB on the high bytes subtract 16 bits (the reading of the borrow that R142 fixes), with C as the
inverted borrow of the whole; ADDWF and ADDWFC add 16 bits, with C as the carry of the whole (R125, R126). -/
def Obligations.SixteenBitArithmetic : Prop :=
  ∀ (s₁ s₂ t₁ t₂ : State) (f g : FileAddr) (lo hi : Byte), fread s₁ f = .ok lo → fread s₂ g = .ok hi → s₂.c = t₁.c →
    (exec (.subwf f .w) s₁ = .next t₁ → exec (.subwfb g .w) s₂ = .next t₂ →
      t₂.w ++ t₁.w = (hi ++ lo) - (s₂.w ++ s₁.w) ∧ (t₂.c = true ↔ (s₂.w ++ s₁.w).toNat ≤ (hi ++ lo).toNat)) ∧
    (exec (.addwf f .w) s₁ = .next t₁ → exec (.addwfc g .w) s₂ = .next t₂ →
      t₂.w ++ t₁.w = (s₂.w ++ s₁.w) + (hi ++ lo) ∧ (t₂.c = true ↔ 2 ^ 16 ≤ (s₂.w ++ s₁.w).toNat + (hi ++ lo).toNat))

/-! ## Frames: what no instruction changes but those the spec names -/

/-- EVERY BYTE OF RAM is unchanged by an instruction, except the byte at the location it writes: `storeTarget` computes that location
from the state before the instruction, as the meaning does. The resets that an instruction raises keep RAM by R51; that they keep the
bytes of SfrModel, which stand in `ram` too, is THE MODEL'S CHOICE (assumption log 16). -/
def Obligations.RamFrameOfEveryInstruction : Prop :=
  ∀ (i : Instr) (s t : State) (key : Nat), exec i s = .next t → storeTarget i s ≠ some (.ram key) →
    t.ramByte key = s.ramByte key

/-- An instruction that resets the device does so by the spec's reset table (R6 `ResetValues` at its default). -/
def resetsBySpec (i : Instr) (s : State) : Prop := RaisesReset i s → s.cfg.resetValues = resetValuesDefault

/-- W is written only by the instructions of R21's list, by a file write to WREG (R22) and by a context restore (R190); the spec's reset
table keeps it too (R51). -/
def Obligations.WorkingRegisterFrame : Prop :=
  ∀ (i : Instr) (s t : State), exec i s = .next t → writesW i = false → storeTarget i s ≠ some (.core .wreg) →
    ¬RestoresContext i s → resetsBySpec i s → t.w = s.w

/-- The flags are written only as R36's table says, by a file write to STATUS and by a context restore; nTO and nPD only by CLRWDT and
SLEEP. The resets that an instruction raises keep all five by the spec's reset table (R51). -/
def Obligations.FlagFrame : Prop :=
  ∀ (i : Instr) (s t : State), exec i s = .next t → resetsBySpec i s →
    (storeTarget i s ≠ some (.core .status) → ¬RestoresContext i s →
      ((affects i).c = false → t.c = s.c) ∧ ((affects i).dc = false → t.dc = s.dc) ∧
      ((affects i).z = false → t.z = s.z)) ∧
    (i ≠ .clrwdt → i ≠ .sleep → t.nTO = s.nTO ∧ t.nPD = s.nPD)

/-- PCLATH, BSR and the FSRs: no instruction changes them as a side effect (R24, R25, R28), a device reset apart for the first two; the
spec's reset table keeps the FSRs (R51). -/
def Obligations.AddressRegisterFrame : Prop :=
  ∀ (i : Instr) (s t : State), exec i s = .next t → ¬RestoresContext i s → resetsBySpec i s →
    ((∀ k, i ≠ .movlp k) → storeTarget i s ≠ some (.core .pclath) → ¬RaisesReset i s → t.pclath = s.pclath) ∧
    ((∀ k, i ≠ .movlb k) → storeTarget i s ≠ some (.core .bsr) → ¬RaisesReset i s → t.bsr = s.bsr) ∧
    (∀ n, (∀ k, i ≠ .addfsr n k) → (∀ mm, i ≠ .moviwMode n mm ∧ i ≠ .movwiMode n mm) →
      storeTarget i s ≠ some (.core (match n with | .fsr0 => .fsr0l | .fsr1 => .fsr1l)) →
      storeTarget i s ≠ some (.core (match n with | .fsr0 => .fsr0h | .fsr1 => .fsr1h)) → t.fsr n = s.fsr n)

/-- The special registers, the stack, the shadow registers, the watchdog and the sleep state: each is changed only by the instructions
that name it, a file write to it, or a device reset, which by the spec's reset table keeps the shadow registers (R51); the parameters
and the environment's inputs by none. `slot15`, `intWait` and `unwrittenShadows` are the model's own fields (assumption log 6, 11, 5). -/
def Obligations.SpecialStateFrame : Prop :=
  ∀ (i : Instr) (s t : State), exec i s = .next t →
    (¬RaisesReset i s →
      (i ≠ .option → storeTarget i s ≠ some .optionReg → t.optionReg = s.optionReg) ∧
      (i ≠ .tris5 → storeTarget i s ≠ some .trisA → t.trisA = s.trisA) ∧
      (i ≠ .tris6 → storeTarget i s ≠ some .trisB → t.trisB = s.trisB) ∧
      (i ≠ .tris7 → storeTarget i s ≠ some .trisC → t.trisC = s.trisC) ∧
      (storeTarget i s ≠ some .pcon → t.pcon = s.pcon) ∧
      (storeTarget i s ≠ some (.core .intcon) → t.intcon = s.intcon ∧ (i ≠ .retfie → t.gie = s.gie)) ∧
      (¬UsesStack i → t.stack = s.stack ∧ t.slot15 = s.slot15) ∧
      (i ≠ .clrwdt → i ≠ .sleep → t.wdt = s.wdt ∧ t.wdtPre = s.wdtPre) ∧
      (i ≠ .sleep → t.sleeping = s.sleeping) ∧ t.intWait = s.intWait) ∧
    (resetsBySpec i s → (∀ r, storeTarget i s ≠ some (.shadow r)) →
      t.wShad = s.wShad ∧ t.statusShad = s.statusShad ∧ t.bsrShad = s.bsrShad ∧ t.pclathShad = s.pclathShad ∧
      t.fsr0Shad = s.fsr0Shad ∧ t.fsr1Shad = s.fsr1Shad ∧ t.unwrittenShadows = s.unwrittenShadows) ∧
    t.prog = s.prog ∧ t.cfg = s.cfg ∧ t.env = s.env ∧ t.periphReq = s.periphReq ∧ t.powerOns = s.powerOns

/-! ## The invariant -/

/-- AN INVARIANT THAT EVERY STEP KEEPS, whatever the environment chooses: the memories keep their canonical form, RAM lists only RAM
addresses, the stack holds at most STACK_DEPTH entries, the configuration stays admitted. -/
def Obligations.EveryStepKeepsTheInvariant : Prop := ∀ s t : State, s.Inv → step s = .next t → t.Inv

/-- The machine starts in a state that meets the invariant. -/
def Obligations.ResetStateMeetsTheInvariant : Prop := State.reset.Inv

/-! ## Reset, interrupts, sleep, watchdog -/

/-- R51, column "power-on": what the state after the first reset holds, where the spec gives a value, and the defaults of R6 that it is
configured with (which device it is, is the model's choice, assumption log 3). -/
def Obligations.PowerOnValuesOfTheResetState : Prop :=
  let s := State.reset
  s.pc = 0x0000 ∧ s.w = 0x00 ∧ s.c = false ∧ s.dc = false ∧ s.z = false ∧ s.nTO = true ∧ s.nPD = true ∧
  s.fsr0 = 0x0000 ∧ s.fsr1 = 0x0000 ∧ s.bsr = 0 ∧ s.pclath = 0 ∧ s.gie = false ∧ s.intcon = 0 ∧
  s.pcon.stkovf = false ∧ s.pcon.stkunf = false ∧ s.pcon.nRWDT = true ∧ s.pcon.nRMCLR = true ∧ s.pcon.nRI = true ∧
  s.pcon.nPOR = false ∧ s.optionReg = 0xFF ∧ s.trisA = 0xFF ∧ s.trisB = 0xFF ∧ s.trisC = 0xFF ∧ s.stack = [] ∧
  s.wdt = 0 ∧ s.wdtPre = 0 ∧ s.sleeping = false ∧
  hasSpecMap s.cfg ∧ hasSpecReset s.cfg ∧ s.cfg.intVector = 0x0004 ∧ s.cfg.reservedOpcode = .refuse ∧ s.cfg.sfrModel = [] ∧
  s.cfg.stackDepth = 16 ∧ s.cfg.stvren = true ∧ s.cfg.wdtEnabled = false ∧ s.cfg.autoContext = true ∧
  s.cfg.unknownShadows = .refuse ∧ s.cfg.intLatencyMax = none

/-- R261: the device reset, cause by cause, and what every reset but a power-on keeps, with ResetValues and RESET_VECTOR at their
defaults (R6, R51). In any configuration pc is at RESET_VECTOR and RAM is kept but by a power-on. THE MODEL'S OWN: that the bytes of
SfrModel, which stand in `ram`, are kept and lost like RAM (assumption log 16), and the field `unwrittenShadows`, which shadow registers
hold no value (assumption log 5). -/
def Obligations.DeviceResetByCause : Prop :=
  (∀ (k : ResetKind) (s : State),
    (deviceReset k s).pc = s.cfg.resetVector ∧ (deviceReset k s).ram = if k = .powerOn then [] else s.ram) ∧
  ∀ (k : ResetKind) (s : State), hasSpecReset s.cfg →
    let t := deviceReset k s
    (t.stack = [] ∧ t.wdt = 0 ∧ t.wdtPre = 0 ∧ t.sleeping = false ∧ t.gie = false ∧ t.intcon = 0 ∧ t.bsr = 0 ∧
      t.pclath = 0 ∧ t.optionReg = 0xFF ∧ t.trisA = 0xFF ∧ t.trisB = 0xFF ∧ t.trisC = 0xFF ∧ t.pc = 0x0000) ∧
    (k = .powerOn →
      t.nTO = true ∧ t.nPD = true ∧ t.w = 0 ∧ t.c = false ∧ t.dc = false ∧ t.z = false ∧ t.fsr0 = 0 ∧ t.fsr1 = 0 ∧
      t.ram = [] ∧ t.unwrittenShadows = allShadows ∧ ∃ b, t.pcon = ⟨false, false, true, true, true, false, b⟩) ∧
    (k ≠ .powerOn →
      t.w = s.w ∧ t.c = s.c ∧ t.dc = s.dc ∧ t.z = s.z ∧ t.fsr0 = s.fsr0 ∧ t.fsr1 = s.fsr1 ∧ t.ram = s.ram ∧
      t.wShad = s.wShad ∧ t.statusShad = s.statusShad ∧ t.bsrShad = s.bsrShad ∧ t.pclathShad = s.pclathShad ∧
      t.fsr0Shad = s.fsr0Shad ∧ t.fsr1Shad = s.fsr1Shad ∧ t.unwrittenShadows = s.unwrittenShadows) ∧
    (k = .brownOut → t.nTO = true ∧ t.nPD = true ∧ t.pcon = ⟨false, false, true, true, true, s.pcon.nPOR, false⟩) ∧
    (k = .mclr →
      t.pcon = { s.pcon with nRMCLR := false } ∧
      (s.sleeping = true → t.nTO = true ∧ t.nPD = false) ∧ (s.sleeping = false → t.nTO = s.nTO ∧ t.nPD = s.nPD)) ∧
    (k = .watchdog → t.pcon = { s.pcon with nRWDT := false } ∧ t.nTO = false ∧ t.nPD = s.nPD) ∧
    (k = .resetInstruction → t.pcon = { s.pcon with nRI := false } ∧ t.nTO = s.nTO ∧ t.nPD = s.nPD) ∧
    (k = .stackOverflow → t.pcon = { s.pcon with stkovf := true } ∧ t.nTO = s.nTO ∧ t.nPD = s.nPD) ∧
    (k = .stackUnderflow → t.pcon = { s.pcon with stkunf := true } ∧ t.nTO = s.nTO ∧ t.nPD = s.nPD)

/-- The state after line 2 of the machine step (R230 (a), R232, R236), written out: the environment's choice is used up, the interrupt
flags it chooses are set in INTCON (TMR0IF bit 2, INTF bit 1, IOCIF bit 0) and none is cleared, PeriphReq takes its new value if there is
one. -/
def afterInputs (s : State) : State :=
  { s with
    env := s.env.tail
    intcon :=
      s.intcon |||
        BitVec.ofNat 7 (4 * s.choice.setTmr0if.toNat + 2 * s.choice.setIntf.toNat + s.choice.setIocif.toNat)
    periphReq := s.choice.periph.getD s.periphReq }

/-- A time-out that the environment asks for can be delivered (R247; assumption log 9). -/
def timeoutComes (s : State) : Prop :=
  s.choice.wdtTimeout = true ∧ s.cfg.wdtEnabled = true ∧ (0 < s.wdt ∨ 0 < s.wdtPre)

/-- INT_LATENCY_MAX allows the environment to put the entry off (R6, R236; the count is the model's, assumption log 11). -/
def entryMayWait (s : State) : Prop := ∀ n, s.cfg.intLatencyMax = some n → s.intWait < n

/-- `t` after an interrupt entry (R235): pc is pushed, the context saved if AUTO_CONTEXT, GIE cleared, pc at INT_VECTOR. The rest is the
model's own: `slot15` takes the entry that fills the 16th slot (DEDUCED, assumption log 6), the shadow registers hold values from now on
(assumption log 5), the watchdog counts one more period (assumption log 9), the wait for an entry is over (assumption log 11). -/
def entered (t : State) : State :=
  let u : State :=
    { t with
      stack := t.pc :: t.stack, slot15 := if t.stack.length = 15 then t.pc else t.slot15, gie := false, pc := t.cfg.intVector
      wdt := t.wdt + 1, wdtPre := t.wdtPre + 1, intWait := 0 }
  if t.cfg.autoContext then
    { u with
      wShad := t.w, statusShad := BitVec.ofNat 3 (4 * t.z.toNat + 2 * t.dc.toNat + t.c.toNat), bsrShad := t.bsr
      pclathShad := t.pclath, fsr0Shad := t.fsr0, fsr1Shad := t.fsr1, unwrittenShadows := [] }
  else u

/-- R235, R236 line 4: in an awake core with GIE set and a request, the environment's choice of an entry pushes pc, saves the context,
clears GIE and goes to INT_VECTOR, 0x0004 by default (R6); the core step follows. Nothing else of the spec's state changes but the inputs
of line 2. THE MODEL'S OWN: slot 15 takes pc when the push fills the 16th slot (DEDUCED, assumption log 6), the shadow registers are
marked as holding values (assumption log 5), the watchdog counts a period (assumption log 9), `intWait` is 0 (assumption log 11). -/
def Obligations.InterruptEntrySavesAndVectors : Prop :=
  params1508.intVector = 0x0004 ∧ params1509.intVector = 0x0004 ∧
  ∀ s : State, s.choice.extReset = none → ¬timeoutComes s → s.sleeping = false → s.choice.intEntry = true →
    (afterInputs s).gie = true → (afterInputs s).intReq = true → s.stack.length < s.cfg.stackDepth →
    envPhase s = .run (entered (afterInputs s))

/-- R230 (a), R232: line 2 of the machine step sets the flags TMR0IF, INTF and IOCIF, bits 2, 1 and 0 of INTCON, that the environment
chooses and clears none (DEDUCED, assumption log 12), gives PeriphReq its new value if there is one, and changes nothing else; that the
choice is taken off a list is the model's (assumption log 2). The request is R232's formula over the bits of INTCON. R236 line 4: no
entry where its condition does not hold, and none that the environment does not choose while INT_LATENCY_MAX allows waiting: the core
step follows from the same pc, and after INT_LATENCY_MAX such steps the entry is not left out. The counts are the model's: one more
watchdog period (assumption log 9), the wait for an entry (assumption log 11). -/
def Obligations.NoInterruptEntryOutsideItsCondition : Prop :=
  (∀ s : State,
    let t := s.dropChoice.setInputs s.choice
    t = afterInputs s ∧ t = { s with env := s.env.tail, intcon := t.intcon, periphReq := t.periphReq } ∧
    (∀ i : Nat, t.intcon.getLsbD i = true ↔
      s.intcon.getLsbD i = true ∨ (i = 2 ∧ s.choice.setTmr0if = true) ∨ (i = 1 ∧ s.choice.setIntf = true) ∨
        (i = 0 ∧ s.choice.setIocif = true)) ∧
    (∀ b, s.choice.periph = some b → t.periphReq = b) ∧ (s.choice.periph = none → t.periphReq = s.periphReq)) ∧
  (∀ s : State,
    s.intReq = true ↔
      (s.intcon.getLsbD 2 = true ∧ s.intcon.getLsbD 5 = true) ∨ (s.intcon.getLsbD 1 = true ∧ s.intcon.getLsbD 4 = true) ∨
      (s.intcon.getLsbD 0 = true ∧ s.intcon.getLsbD 3 = true) ∨ (s.intcon.getLsbD 6 = true ∧ s.periphReq = true)) ∧
  ∀ s : State, s.choice.extReset = none → ¬timeoutComes s → s.sleeping = false →
    let t := afterInputs s
    (t.gie = false ∨ t.intReq = false →
      envPhase s = .run { t with wdt := s.wdt + 1, wdtPre := s.wdtPre + 1, intWait := 0 }) ∧
    (t.gie = true → t.intReq = true → s.choice.intEntry = false → entryMayWait s →
      envPhase s = .run { t with wdt := s.wdt + 1, wdtPre := s.wdtPre + 1, intWait := s.intWait + 1 }) ∧
    (t.gie = true → t.intReq = true → ¬entryMayWait s → s.stack.length < s.cfg.stackDepth →
      envPhase s = .run (entered t))

/-- R237: RETFIE undoes an interrupt entry: the interrupted instruction's address, W, the arithmetic flags, BSR, PCLATH, the FSRs and
the stack are back, and GIE is set again. It runs however the configuration treats shadow registers without a value, since the entry has
written them (R190; assumption log 5). The model's field `slot15` is left open (assumption log 6). -/
def Obligations.RetfieUndoesInterruptEntry : Prop :=
  ∀ s t : State, s.cfg.autoContext = true → s.gie = true → interruptEntry s = .ok t →
    ∃ u, exec .retfie t = .next u ∧
      u = { s with
        slot15 := u.slot15, wShad := u.wShad, statusShad := u.statusShad, bsrShad := u.bsrShad, pclathShad := u.pclathShad
        fsr0Shad := u.fsr0Shad, fsr1Shad := u.fsr1Shad, unwrittenShadows := u.unwrittenShadows }

/-- R234: an external reset comes before everything else, then a watchdog time-out, which is a reset in an awake core; neither lets
the core execute an instruction in that step. THE MODEL'S CHOICES: that a reset ends the step (assumption log 13), the list of choices
(assumption log 2), when a time-out can be delivered (assumption log 9), and that line 2's flags are set before it (DEDUCED, assumption
log 12). -/
def Obligations.ResetsComeFirst : Prop :=
  ∀ s : State,
    (∀ k, s.choice.extReset = some k → step s = .next (deviceReset k.kind s.dropChoice)) ∧
    (s.choice.extReset = none → timeoutComes s → s.sleeping = false →
      step s = .next (deviceReset .watchdog (afterInputs s)))

/-- What follows in the machine step in which the core wakes, `t` being the awake state and `s` the one before the step (R236 lines 4
and 5, R248; that they follow in the same step is DEDUCED, assumption log 29). With no entry possible the core executes the instruction
at pc, the one after SLEEP. With GIE set and a request the entry comes first where the environment takes it or it may wait no longer, and
on a full stack ends as its push does; else the instruction after SLEEP comes first. The counts are the model's (assumption log 9, 11). -/
def WakesTo (s t : State) : Prop :=
  (t.gie = false ∨ t.intReq = false →
    envPhase s = .run { t with wdt := s.wdt + 1, wdtPre := s.wdtPre + 1, intWait := 0 }) ∧
  (t.gie = true → t.intReq = true → s.choice.intEntry = false → entryMayWait s →
    envPhase s = .run { t with wdt := s.wdt + 1, wdtPre := s.wdtPre + 1, intWait := s.intWait + 1 }) ∧
  (t.gie = true → t.intReq = true → s.choice.intEntry = true ∨ ¬entryMayWait s →
    (s.stack.length < s.cfg.stackDepth → envPhase s = .run (entered t)) ∧
    (s.cfg.stackDepth ≤ s.stack.length → s.cfg.stvren = true → step s = .next (deviceReset .stackOverflow t)) ∧
    (s.cfg.stackDepth ≤ s.stack.length → s.cfg.stvren = false → step s = .refused .stackOverflowUnguarded))

/-- R247: a watchdog time-out in Sleep mode wakes the core with nTO = 0 and nPD as SLEEP left it, and execution goes on: at pc, or, with
GIE set and a request, by an interrupt entry or at pc as the environment chooses (R236 lines 4 and 5). With WDT_ENABLED false, or right
after a clear, no time-out occurs. THE MODEL'S CHOICES: the counting of periods (assumption log 9), the wait for an entry and its reset
(assumption log 11), and that lines 4 and 5 follow in the machine step of the wake-up (DEDUCED, assumption log 29). -/
def Obligations.WatchdogWakesAndIsSilentWhenDisabled : Prop :=
  (∀ s : State, s.choice.extReset = none → timeoutComes s → s.sleeping = true →
    WakesTo s { afterInputs s with nTO := false, sleeping := false }) ∧
  (∀ (s : State) (e : EnvChoice) (rest : List EnvChoice), s.env = e :: rest → ¬timeoutComes s →
    step s = step { s with env := { e with wdtTimeout := false } :: rest })

/-- R46, R248: a sleeping core executes nothing and keeps all of its state until a wake-up condition holds and the environment wakes
it; then execution goes on with nTO and nPD as SLEEP left them, whatever GIE is: at pc, the instruction after SLEEP, or, with GIE set, by
an interrupt entry or at pc first as the environment chooses (R236 lines 4 and 5, both runs of R248's relation). THE MODEL'S CHOICES: a
step in which the core stays asleep is a next state (assumption log 14), the counting of watchdog periods (assumption log 9), the wait
for an entry and its reset (assumption log 11), and that lines 4 and 5 follow in the machine step of the wake-up (DEDUCED, assumption
log 29). -/
def Obligations.SleepKeepsStateUntilWokenByARequest : Prop :=
  ∀ s : State, s.choice.extReset = none → ¬timeoutComes s → s.sleeping = true →
    let t := afterInputs s
    (s.choice.wake = false ∨ t.intReq = false →
      step s = .next { t with wdt := s.wdt + 1, wdtPre := s.wdtPre + 1 }) ∧
    (s.choice.wake = true → t.intReq = true → WakesTo s { t with sleeping := false })
end

