-- ==== Sys2Proof/Laws/Memory.lean ====
section
/-! SUPPORT. Sparse storage: read after write, and every operation keeps the canonical form. -/

namespace Sys2Proof.Machine

section
variable {α : Type}

/-- A write is read back at its own address. -/
@[simp] theorem cellRead_cellWrite_same (m : List (Nat × α)) (a : Nat) (v : α) : cellRead (cellWrite m a v) a = some v := by
  induction m with
  | nil => simp [cellWrite, cellRead]
  | cons e rest ih =>
    obtain ⟨k, u⟩ := e
    unfold cellWrite
    split
    · simp [cellRead]
    · split
      · simp [cellRead]
      · rename_i hk
        simp [cellRead, hk, ih]

/-- A write leaves every other address alone. -/
theorem cellRead_cellWrite_other (m : List (Nat × α)) (a b : Nat) (v : α) (h : b ≠ a) :
    cellRead (cellWrite m a v) b = cellRead m b := by
  induction m with
  | nil => simp [cellWrite, cellRead, h]
  | cons e rest ih =>
    obtain ⟨k, u⟩ := e
    unfold cellWrite
    split
    · simp [cellRead, h]
    · split
      · rename_i hk
        subst hk
        simp [cellRead, h]
      · simp [cellRead, ih]

/-- Nothing is listed below the first address. -/
theorem cellRead_none_of_lt (m : List (Nat × α)) (a : Nat) (h : ∀ k ∈ m.map Prod.fst, a < k) : cellRead m a = none := by
  induction m with
  | nil => rfl
  | cons e rest ih =>
    obtain ⟨k, u⟩ := e
    have hk : a < k := h k (by simp)
    have : a ≠ k := by omega
    simp only [cellRead, this, if_false]
    exact ih fun x hx => h x (by simp at hx ⊢; exact Or.inr hx)

/-- An erased address lists nothing. -/
theorem cellRead_cellErase_same (m : List (Nat × α)) (a : Nat) (h : cellsRising m) : cellRead (cellErase m a) a = none := by
  induction m with
  | nil => rfl
  | cons e rest ih =>
    obtain ⟨k, u⟩ := e
    simp only [cellsRising, List.map_cons, List.pairwise_cons] at h
    unfold cellErase
    split
    · rename_i hk
      subst hk
      exact cellRead_none_of_lt _ _ h.1
    · rename_i hk
      simp [cellRead, hk, ih h.2]

/-- Erasing leaves every other address alone. -/
theorem cellRead_cellErase_other (m : List (Nat × α)) (a b : Nat) (h : b ≠ a) :
    cellRead (cellErase m a) b = cellRead m b := by
  induction m with
  | nil => rfl
  | cons e rest ih =>
    obtain ⟨k, u⟩ := e
    unfold cellErase
    split
    · rename_i hk
      subst hk
      simp [cellRead, h]
    · simp [cellRead, ih]

/-- The entries after a write are old ones or the new one. -/
theorem mem_cellWrite {m : List (Nat × α)} {a : Nat} {v : α} {e : Nat × α} (h : e ∈ cellWrite m a v) :
    e ∈ m ∨ e = (a, v) := by
  induction m with
  | nil => simpa [cellWrite] using h
  | cons x rest ih =>
    obtain ⟨k, u⟩ := x
    unfold cellWrite at h
    split at h
    · simpa [or_comm, or_left_comm, or_assoc] using h
    · split at h
      · simp at h ⊢
        tauto
      · simp at h ⊢
        rcases h with h | h
        · exact Or.inl (Or.inl h)
        · rcases ih h with h | h
          · exact Or.inl (Or.inr h)
          · exact Or.inr h

/-- The entries after an erasure are old ones. -/
theorem mem_cellErase {m : List (Nat × α)} {a : Nat} {e : Nat × α} (h : e ∈ cellErase m a) : e ∈ m := by
  induction m with
  | nil => exact h
  | cons x rest ih =>
    obtain ⟨k, u⟩ := x
    unfold cellErase at h
    split at h
    · exact List.mem_cons_of_mem _ h
    · rcases List.mem_cons.1 h with h | h
      · exact h ▸ List.mem_cons_self
      · exact List.mem_cons_of_mem _ (ih h)

/-- A write keeps the addresses rising. -/
theorem cellWrite_rising (m : List (Nat × α)) (a : Nat) (v : α) (h : cellsRising m) : cellsRising (cellWrite m a v) := by
  induction m with
  | nil => simp [cellWrite, cellsRising]
  | cons e rest ih =>
    obtain ⟨k, u⟩ := e
    simp only [cellsRising, List.map_cons, List.pairwise_cons] at h
    unfold cellWrite
    split
    · rename_i hk
      simp only [cellsRising, List.map_cons, List.pairwise_cons, List.mem_cons, forall_eq_or_imp]
      exact ⟨⟨hk, fun x hx => lt_trans hk (h.1 x hx)⟩, h⟩
    · split
      · rename_i hk
        subst hk
        simpa only [cellsRising, List.map_cons, List.pairwise_cons] using h
      · rename_i h1 h2
        simp only [cellsRising, List.map_cons, List.pairwise_cons]
        refine ⟨fun x hx => ?_, ih h.2⟩
        obtain ⟨e, he, rfl⟩ := List.mem_map.1 hx
        rcases mem_cellWrite he with he | he
        · exact h.1 _ (List.mem_map_of_mem he)
        · subst he
          show k < a
          omega

/-- An erasure keeps the addresses rising. -/
theorem cellErase_rising (m : List (Nat × α)) (a : Nat) (h : cellsRising m) : cellsRising (cellErase m a) := by
  induction m with
  | nil => exact h
  | cons e rest ih =>
    obtain ⟨k, u⟩ := e
    simp only [cellsRising, List.map_cons, List.pairwise_cons] at h
    unfold cellErase
    split
    · exact h.2
    · simp only [cellsRising, List.map_cons, List.pairwise_cons]
      refine ⟨fun x hx => ?_, ih h.2⟩
      obtain ⟨e, he, rfl⟩ := List.mem_map.1 hx
      exact h.1 _ (List.mem_map_of_mem (mem_cellErase he))

end

/-- A RAM byte is read back as written. -/
@[simp] theorem Memory.read_write_same (m : Memory) (k : Nat) (v : Byte) : (Memory.write m k v).read k = some v :=
  cellRead_cellWrite_same m k v

/-- A RAM write leaves every other byte alone. -/
theorem Memory.read_write_other (m : Memory) (k j : Nat) (v : Byte) (h : j ≠ k) :
    (Memory.write m k v).read j = Memory.read m j :=
  cellRead_cellWrite_other m k j v h

/-- A RAM write keeps the canonical form. -/
theorem Memory.write_wf {m : Memory} (h : m.wf) (k : Nat) (v : Byte) : (Memory.write m k v).wf :=
  cellWrite_rising m k v h

/-- The entries after a RAM write are old ones or the new one. -/
theorem Memory.mem_write {m : Memory} {k : Nat} {v : Byte} {e : Host.Cell} (h : e ∈ Memory.write m k v) :
    e ∈ m ∨ e = (k, v) :=
  mem_cellWrite h

/-- A placed program word is read back. -/
@[simp] theorem Program.read_write_same {p : Program} (h : p.wf) (a : Nat) (w : InstrWord) :
    (Program.write p a w).read a = w := by
  unfold Program.write Program.read
  split
  · rename_i hw
    rw [cellRead_cellErase_same _ _ h.1, hw]
    rfl
  · simp

/-- Placing a program word leaves every other word alone. -/
theorem Program.read_write_other (p : Program) (a b : Nat) (w : InstrWord) (h : b ≠ a) :
    (Program.write p a w).read b = Program.read p b := by
  unfold Program.write Program.read
  split
  · rw [cellRead_cellErase_other _ _ _ h]
  · rw [cellRead_cellWrite_other _ _ _ _ h]

/-- Placing a program word keeps the canonical form. -/
theorem Program.write_wf {p : Program} (h : p.wf) (a : Nat) (w : InstrWord) : (Program.write p a w).wf := by
  unfold Program.write
  split
  · exact ⟨cellErase_rising _ _ h.1, fun e he => h.2 e (mem_cellErase he)⟩
  · rename_i hw
    refine ⟨cellWrite_rising _ _ _ h.1, fun e he => ?_⟩
    rcases mem_cellWrite he with he | he
    · exact h.2 e he
    · rw [he]
      exact hw

/-- The memories of the reset state are in canonical form. -/
theorem reset_memories_wf : State.reset.ram.wf ∧ State.reset.prog.wf := by
  simp [State.reset, Memory.wf, Program.wf, cellsRising]

end Sys2Proof.Machine
end

