-- ==== Sys2Proof/Laws/State.lean ====
section
/-! SUPPORT. One lemma per field per update of the state, true by rfl, so that no proof unfolds a record update; then the same for
the updates that branch (setFsr, saveContext, restoreContext, forgetAll, writeShadow). -/

namespace Sys2Proof.Machine

section
variable (s : State)


-- State.advance
@[simp] theorem State.advance_w : s.advance.w = s.w := rfl
@[simp] theorem State.advance_pc : s.advance.pc = s.pc + 1 := rfl
@[simp] theorem State.advance_pclath : s.advance.pclath = s.pclath := rfl
@[simp] theorem State.advance_bsr : s.advance.bsr = s.bsr := rfl
@[simp] theorem State.advance_fsr0 : s.advance.fsr0 = s.fsr0 := rfl
@[simp] theorem State.advance_fsr1 : s.advance.fsr1 = s.fsr1 := rfl
@[simp] theorem State.advance_c : s.advance.c = s.c := rfl
@[simp] theorem State.advance_dc : s.advance.dc = s.dc := rfl
@[simp] theorem State.advance_z : s.advance.z = s.z := rfl
@[simp] theorem State.advance_nTO : s.advance.nTO = s.nTO := rfl
@[simp] theorem State.advance_nPD : s.advance.nPD = s.nPD := rfl
@[simp] theorem State.advance_gie : s.advance.gie = s.gie := rfl
@[simp] theorem State.advance_intcon : s.advance.intcon = s.intcon := rfl
@[simp] theorem State.advance_pcon : s.advance.pcon = s.pcon := rfl
@[simp] theorem State.advance_optionReg : s.advance.optionReg = s.optionReg := rfl
@[simp] theorem State.advance_trisA : s.advance.trisA = s.trisA := rfl
@[simp] theorem State.advance_trisB : s.advance.trisB = s.trisB := rfl
@[simp] theorem State.advance_trisC : s.advance.trisC = s.trisC := rfl
@[simp] theorem State.advance_wdt : s.advance.wdt = s.wdt := rfl
@[simp] theorem State.advance_wdtPre : s.advance.wdtPre = s.wdtPre := rfl
@[simp] theorem State.advance_stack : s.advance.stack = s.stack := rfl
@[simp] theorem State.advance_slot15 : s.advance.slot15 = s.slot15 := rfl
@[simp] theorem State.advance_sleeping : s.advance.sleeping = s.sleeping := rfl
@[simp] theorem State.advance_ram : s.advance.ram = s.ram := rfl
@[simp] theorem State.advance_wShad : s.advance.wShad = s.wShad := rfl
@[simp] theorem State.advance_statusShad : s.advance.statusShad = s.statusShad := rfl
@[simp] theorem State.advance_bsrShad : s.advance.bsrShad = s.bsrShad := rfl
@[simp] theorem State.advance_pclathShad : s.advance.pclathShad = s.pclathShad := rfl
@[simp] theorem State.advance_fsr0Shad : s.advance.fsr0Shad = s.fsr0Shad := rfl
@[simp] theorem State.advance_fsr1Shad : s.advance.fsr1Shad = s.fsr1Shad := rfl
@[simp] theorem State.advance_prog : s.advance.prog = s.prog := rfl
@[simp] theorem State.advance_cfg : s.advance.cfg = s.cfg := rfl
@[simp] theorem State.advance_periphReq : s.advance.periphReq = s.periphReq := rfl
@[simp] theorem State.advance_env : s.advance.env = s.env := rfl
@[simp] theorem State.advance_powerOns : s.advance.powerOns = s.powerOns := rfl
@[simp] theorem State.advance_intWait : s.advance.intWait = s.intWait := rfl
@[simp] theorem State.advance_statusPicks : s.advance.statusPicks = s.statusPicks := rfl
@[simp] theorem State.advance_unwrittenShadows : s.advance.unwrittenShadows = s.unwrittenShadows := rfl

-- State.skipNext
@[simp] theorem State.skipNext_w : s.skipNext.w = s.w := rfl
@[simp] theorem State.skipNext_pc : s.skipNext.pc = s.pc + 2 := rfl
@[simp] theorem State.skipNext_pclath : s.skipNext.pclath = s.pclath := rfl
@[simp] theorem State.skipNext_bsr : s.skipNext.bsr = s.bsr := rfl
@[simp] theorem State.skipNext_fsr0 : s.skipNext.fsr0 = s.fsr0 := rfl
@[simp] theorem State.skipNext_fsr1 : s.skipNext.fsr1 = s.fsr1 := rfl
@[simp] theorem State.skipNext_c : s.skipNext.c = s.c := rfl
@[simp] theorem State.skipNext_dc : s.skipNext.dc = s.dc := rfl
@[simp] theorem State.skipNext_z : s.skipNext.z = s.z := rfl
@[simp] theorem State.skipNext_nTO : s.skipNext.nTO = s.nTO := rfl
@[simp] theorem State.skipNext_nPD : s.skipNext.nPD = s.nPD := rfl
@[simp] theorem State.skipNext_gie : s.skipNext.gie = s.gie := rfl
@[simp] theorem State.skipNext_intcon : s.skipNext.intcon = s.intcon := rfl
@[simp] theorem State.skipNext_pcon : s.skipNext.pcon = s.pcon := rfl
@[simp] theorem State.skipNext_optionReg : s.skipNext.optionReg = s.optionReg := rfl
@[simp] theorem State.skipNext_trisA : s.skipNext.trisA = s.trisA := rfl
@[simp] theorem State.skipNext_trisB : s.skipNext.trisB = s.trisB := rfl
@[simp] theorem State.skipNext_trisC : s.skipNext.trisC = s.trisC := rfl
@[simp] theorem State.skipNext_wdt : s.skipNext.wdt = s.wdt := rfl
@[simp] theorem State.skipNext_wdtPre : s.skipNext.wdtPre = s.wdtPre := rfl
@[simp] theorem State.skipNext_stack : s.skipNext.stack = s.stack := rfl
@[simp] theorem State.skipNext_slot15 : s.skipNext.slot15 = s.slot15 := rfl
@[simp] theorem State.skipNext_sleeping : s.skipNext.sleeping = s.sleeping := rfl
@[simp] theorem State.skipNext_ram : s.skipNext.ram = s.ram := rfl
@[simp] theorem State.skipNext_wShad : s.skipNext.wShad = s.wShad := rfl
@[simp] theorem State.skipNext_statusShad : s.skipNext.statusShad = s.statusShad := rfl
@[simp] theorem State.skipNext_bsrShad : s.skipNext.bsrShad = s.bsrShad := rfl
@[simp] theorem State.skipNext_pclathShad : s.skipNext.pclathShad = s.pclathShad := rfl
@[simp] theorem State.skipNext_fsr0Shad : s.skipNext.fsr0Shad = s.fsr0Shad := rfl
@[simp] theorem State.skipNext_fsr1Shad : s.skipNext.fsr1Shad = s.fsr1Shad := rfl
@[simp] theorem State.skipNext_prog : s.skipNext.prog = s.prog := rfl
@[simp] theorem State.skipNext_cfg : s.skipNext.cfg = s.cfg := rfl
@[simp] theorem State.skipNext_periphReq : s.skipNext.periphReq = s.periphReq := rfl
@[simp] theorem State.skipNext_env : s.skipNext.env = s.env := rfl
@[simp] theorem State.skipNext_powerOns : s.skipNext.powerOns = s.powerOns := rfl
@[simp] theorem State.skipNext_intWait : s.skipNext.intWait = s.intWait := rfl
@[simp] theorem State.skipNext_statusPicks : s.skipNext.statusPicks = s.statusPicks := rfl
@[simp] theorem State.skipNext_unwrittenShadows : s.skipNext.unwrittenShadows = s.unwrittenShadows := rfl

-- State.setPc
@[simp] theorem State.setPc_w (t : ProgAddr) : (s.setPc t).w = s.w := rfl
@[simp] theorem State.setPc_pc (t : ProgAddr) : (s.setPc t).pc = t := rfl
@[simp] theorem State.setPc_pclath (t : ProgAddr) : (s.setPc t).pclath = s.pclath := rfl
@[simp] theorem State.setPc_bsr (t : ProgAddr) : (s.setPc t).bsr = s.bsr := rfl
@[simp] theorem State.setPc_fsr0 (t : ProgAddr) : (s.setPc t).fsr0 = s.fsr0 := rfl
@[simp] theorem State.setPc_fsr1 (t : ProgAddr) : (s.setPc t).fsr1 = s.fsr1 := rfl
@[simp] theorem State.setPc_c (t : ProgAddr) : (s.setPc t).c = s.c := rfl
@[simp] theorem State.setPc_dc (t : ProgAddr) : (s.setPc t).dc = s.dc := rfl
@[simp] theorem State.setPc_z (t : ProgAddr) : (s.setPc t).z = s.z := rfl
@[simp] theorem State.setPc_nTO (t : ProgAddr) : (s.setPc t).nTO = s.nTO := rfl
@[simp] theorem State.setPc_nPD (t : ProgAddr) : (s.setPc t).nPD = s.nPD := rfl
@[simp] theorem State.setPc_gie (t : ProgAddr) : (s.setPc t).gie = s.gie := rfl
@[simp] theorem State.setPc_intcon (t : ProgAddr) : (s.setPc t).intcon = s.intcon := rfl
@[simp] theorem State.setPc_pcon (t : ProgAddr) : (s.setPc t).pcon = s.pcon := rfl
@[simp] theorem State.setPc_optionReg (t : ProgAddr) : (s.setPc t).optionReg = s.optionReg := rfl
@[simp] theorem State.setPc_trisA (t : ProgAddr) : (s.setPc t).trisA = s.trisA := rfl
@[simp] theorem State.setPc_trisB (t : ProgAddr) : (s.setPc t).trisB = s.trisB := rfl
@[simp] theorem State.setPc_trisC (t : ProgAddr) : (s.setPc t).trisC = s.trisC := rfl
@[simp] theorem State.setPc_wdt (t : ProgAddr) : (s.setPc t).wdt = s.wdt := rfl
@[simp] theorem State.setPc_wdtPre (t : ProgAddr) : (s.setPc t).wdtPre = s.wdtPre := rfl
@[simp] theorem State.setPc_stack (t : ProgAddr) : (s.setPc t).stack = s.stack := rfl
@[simp] theorem State.setPc_slot15 (t : ProgAddr) : (s.setPc t).slot15 = s.slot15 := rfl
@[simp] theorem State.setPc_sleeping (t : ProgAddr) : (s.setPc t).sleeping = s.sleeping := rfl
@[simp] theorem State.setPc_ram (t : ProgAddr) : (s.setPc t).ram = s.ram := rfl
@[simp] theorem State.setPc_wShad (t : ProgAddr) : (s.setPc t).wShad = s.wShad := rfl
@[simp] theorem State.setPc_statusShad (t : ProgAddr) : (s.setPc t).statusShad = s.statusShad := rfl
@[simp] theorem State.setPc_bsrShad (t : ProgAddr) : (s.setPc t).bsrShad = s.bsrShad := rfl
@[simp] theorem State.setPc_pclathShad (t : ProgAddr) : (s.setPc t).pclathShad = s.pclathShad := rfl
@[simp] theorem State.setPc_fsr0Shad (t : ProgAddr) : (s.setPc t).fsr0Shad = s.fsr0Shad := rfl
@[simp] theorem State.setPc_fsr1Shad (t : ProgAddr) : (s.setPc t).fsr1Shad = s.fsr1Shad := rfl
@[simp] theorem State.setPc_prog (t : ProgAddr) : (s.setPc t).prog = s.prog := rfl
@[simp] theorem State.setPc_cfg (t : ProgAddr) : (s.setPc t).cfg = s.cfg := rfl
@[simp] theorem State.setPc_periphReq (t : ProgAddr) : (s.setPc t).periphReq = s.periphReq := rfl
@[simp] theorem State.setPc_env (t : ProgAddr) : (s.setPc t).env = s.env := rfl
@[simp] theorem State.setPc_powerOns (t : ProgAddr) : (s.setPc t).powerOns = s.powerOns := rfl
@[simp] theorem State.setPc_intWait (t : ProgAddr) : (s.setPc t).intWait = s.intWait := rfl
@[simp] theorem State.setPc_statusPicks (t : ProgAddr) : (s.setPc t).statusPicks = s.statusPicks := rfl
@[simp] theorem State.setPc_unwrittenShadows (t : ProgAddr) : (s.setPc t).unwrittenShadows = s.unwrittenShadows := rfl

-- State.setW
@[simp] theorem State.setW_w (v : Byte) : (s.setW v).w = v := rfl
@[simp] theorem State.setW_pc (v : Byte) : (s.setW v).pc = s.pc := rfl
@[simp] theorem State.setW_pclath (v : Byte) : (s.setW v).pclath = s.pclath := rfl
@[simp] theorem State.setW_bsr (v : Byte) : (s.setW v).bsr = s.bsr := rfl
@[simp] theorem State.setW_fsr0 (v : Byte) : (s.setW v).fsr0 = s.fsr0 := rfl
@[simp] theorem State.setW_fsr1 (v : Byte) : (s.setW v).fsr1 = s.fsr1 := rfl
@[simp] theorem State.setW_c (v : Byte) : (s.setW v).c = s.c := rfl
@[simp] theorem State.setW_dc (v : Byte) : (s.setW v).dc = s.dc := rfl
@[simp] theorem State.setW_z (v : Byte) : (s.setW v).z = s.z := rfl
@[simp] theorem State.setW_nTO (v : Byte) : (s.setW v).nTO = s.nTO := rfl
@[simp] theorem State.setW_nPD (v : Byte) : (s.setW v).nPD = s.nPD := rfl
@[simp] theorem State.setW_gie (v : Byte) : (s.setW v).gie = s.gie := rfl
@[simp] theorem State.setW_intcon (v : Byte) : (s.setW v).intcon = s.intcon := rfl
@[simp] theorem State.setW_pcon (v : Byte) : (s.setW v).pcon = s.pcon := rfl
@[simp] theorem State.setW_optionReg (v : Byte) : (s.setW v).optionReg = s.optionReg := rfl
@[simp] theorem State.setW_trisA (v : Byte) : (s.setW v).trisA = s.trisA := rfl
@[simp] theorem State.setW_trisB (v : Byte) : (s.setW v).trisB = s.trisB := rfl
@[simp] theorem State.setW_trisC (v : Byte) : (s.setW v).trisC = s.trisC := rfl
@[simp] theorem State.setW_wdt (v : Byte) : (s.setW v).wdt = s.wdt := rfl
@[simp] theorem State.setW_wdtPre (v : Byte) : (s.setW v).wdtPre = s.wdtPre := rfl
@[simp] theorem State.setW_stack (v : Byte) : (s.setW v).stack = s.stack := rfl
@[simp] theorem State.setW_slot15 (v : Byte) : (s.setW v).slot15 = s.slot15 := rfl
@[simp] theorem State.setW_sleeping (v : Byte) : (s.setW v).sleeping = s.sleeping := rfl
@[simp] theorem State.setW_ram (v : Byte) : (s.setW v).ram = s.ram := rfl
@[simp] theorem State.setW_wShad (v : Byte) : (s.setW v).wShad = s.wShad := rfl
@[simp] theorem State.setW_statusShad (v : Byte) : (s.setW v).statusShad = s.statusShad := rfl
@[simp] theorem State.setW_bsrShad (v : Byte) : (s.setW v).bsrShad = s.bsrShad := rfl
@[simp] theorem State.setW_pclathShad (v : Byte) : (s.setW v).pclathShad = s.pclathShad := rfl
@[simp] theorem State.setW_fsr0Shad (v : Byte) : (s.setW v).fsr0Shad = s.fsr0Shad := rfl
@[simp] theorem State.setW_fsr1Shad (v : Byte) : (s.setW v).fsr1Shad = s.fsr1Shad := rfl
@[simp] theorem State.setW_prog (v : Byte) : (s.setW v).prog = s.prog := rfl
@[simp] theorem State.setW_cfg (v : Byte) : (s.setW v).cfg = s.cfg := rfl
@[simp] theorem State.setW_periphReq (v : Byte) : (s.setW v).periphReq = s.periphReq := rfl
@[simp] theorem State.setW_env (v : Byte) : (s.setW v).env = s.env := rfl
@[simp] theorem State.setW_powerOns (v : Byte) : (s.setW v).powerOns = s.powerOns := rfl
@[simp] theorem State.setW_intWait (v : Byte) : (s.setW v).intWait = s.intWait := rfl
@[simp] theorem State.setW_statusPicks (v : Byte) : (s.setW v).statusPicks = s.statusPicks := rfl
@[simp] theorem State.setW_unwrittenShadows (v : Byte) : (s.setW v).unwrittenShadows = s.unwrittenShadows := rfl

-- State.setFlags
@[simp] theorem State.setFlags_w (f : FlagWrite) : (s.setFlags f).w = s.w := rfl
@[simp] theorem State.setFlags_pc (f : FlagWrite) : (s.setFlags f).pc = s.pc := rfl
@[simp] theorem State.setFlags_pclath (f : FlagWrite) : (s.setFlags f).pclath = s.pclath := rfl
@[simp] theorem State.setFlags_bsr (f : FlagWrite) : (s.setFlags f).bsr = s.bsr := rfl
@[simp] theorem State.setFlags_fsr0 (f : FlagWrite) : (s.setFlags f).fsr0 = s.fsr0 := rfl
@[simp] theorem State.setFlags_fsr1 (f : FlagWrite) : (s.setFlags f).fsr1 = s.fsr1 := rfl
@[simp] theorem State.setFlags_c (f : FlagWrite) : (s.setFlags f).c = f.c.getD s.c := rfl
@[simp] theorem State.setFlags_dc (f : FlagWrite) : (s.setFlags f).dc = f.dc.getD s.dc := rfl
@[simp] theorem State.setFlags_z (f : FlagWrite) : (s.setFlags f).z = f.z.getD s.z := rfl
@[simp] theorem State.setFlags_nTO (f : FlagWrite) : (s.setFlags f).nTO = s.nTO := rfl
@[simp] theorem State.setFlags_nPD (f : FlagWrite) : (s.setFlags f).nPD = s.nPD := rfl
@[simp] theorem State.setFlags_gie (f : FlagWrite) : (s.setFlags f).gie = s.gie := rfl
@[simp] theorem State.setFlags_intcon (f : FlagWrite) : (s.setFlags f).intcon = s.intcon := rfl
@[simp] theorem State.setFlags_pcon (f : FlagWrite) : (s.setFlags f).pcon = s.pcon := rfl
@[simp] theorem State.setFlags_optionReg (f : FlagWrite) : (s.setFlags f).optionReg = s.optionReg := rfl
@[simp] theorem State.setFlags_trisA (f : FlagWrite) : (s.setFlags f).trisA = s.trisA := rfl
@[simp] theorem State.setFlags_trisB (f : FlagWrite) : (s.setFlags f).trisB = s.trisB := rfl
@[simp] theorem State.setFlags_trisC (f : FlagWrite) : (s.setFlags f).trisC = s.trisC := rfl
@[simp] theorem State.setFlags_wdt (f : FlagWrite) : (s.setFlags f).wdt = s.wdt := rfl
@[simp] theorem State.setFlags_wdtPre (f : FlagWrite) : (s.setFlags f).wdtPre = s.wdtPre := rfl
@[simp] theorem State.setFlags_stack (f : FlagWrite) : (s.setFlags f).stack = s.stack := rfl
@[simp] theorem State.setFlags_slot15 (f : FlagWrite) : (s.setFlags f).slot15 = s.slot15 := rfl
@[simp] theorem State.setFlags_sleeping (f : FlagWrite) : (s.setFlags f).sleeping = s.sleeping := rfl
@[simp] theorem State.setFlags_ram (f : FlagWrite) : (s.setFlags f).ram = s.ram := rfl
@[simp] theorem State.setFlags_wShad (f : FlagWrite) : (s.setFlags f).wShad = s.wShad := rfl
@[simp] theorem State.setFlags_statusShad (f : FlagWrite) : (s.setFlags f).statusShad = s.statusShad := rfl
@[simp] theorem State.setFlags_bsrShad (f : FlagWrite) : (s.setFlags f).bsrShad = s.bsrShad := rfl
@[simp] theorem State.setFlags_pclathShad (f : FlagWrite) : (s.setFlags f).pclathShad = s.pclathShad := rfl
@[simp] theorem State.setFlags_fsr0Shad (f : FlagWrite) : (s.setFlags f).fsr0Shad = s.fsr0Shad := rfl
@[simp] theorem State.setFlags_fsr1Shad (f : FlagWrite) : (s.setFlags f).fsr1Shad = s.fsr1Shad := rfl
@[simp] theorem State.setFlags_prog (f : FlagWrite) : (s.setFlags f).prog = s.prog := rfl
@[simp] theorem State.setFlags_cfg (f : FlagWrite) : (s.setFlags f).cfg = s.cfg := rfl
@[simp] theorem State.setFlags_periphReq (f : FlagWrite) : (s.setFlags f).periphReq = s.periphReq := rfl
@[simp] theorem State.setFlags_env (f : FlagWrite) : (s.setFlags f).env = s.env := rfl
@[simp] theorem State.setFlags_powerOns (f : FlagWrite) : (s.setFlags f).powerOns = s.powerOns := rfl
@[simp] theorem State.setFlags_intWait (f : FlagWrite) : (s.setFlags f).intWait = s.intWait := rfl
@[simp] theorem State.setFlags_statusPicks (f : FlagWrite) : (s.setFlags f).statusPicks = s.statusPicks := rfl
@[simp] theorem State.setFlags_unwrittenShadows (f : FlagWrite) : (s.setFlags f).unwrittenShadows = s.unwrittenShadows := rfl

-- State.setStatus
@[simp] theorem State.setStatus_w (v : Byte) : (s.setStatus v).w = s.w := rfl
@[simp] theorem State.setStatus_pc (v : Byte) : (s.setStatus v).pc = s.pc := rfl
@[simp] theorem State.setStatus_pclath (v : Byte) : (s.setStatus v).pclath = s.pclath := rfl
@[simp] theorem State.setStatus_bsr (v : Byte) : (s.setStatus v).bsr = s.bsr := rfl
@[simp] theorem State.setStatus_fsr0 (v : Byte) : (s.setStatus v).fsr0 = s.fsr0 := rfl
@[simp] theorem State.setStatus_fsr1 (v : Byte) : (s.setStatus v).fsr1 = s.fsr1 := rfl
@[simp] theorem State.setStatus_c (v : Byte) : (s.setStatus v).c = v.getLsbD 0 := rfl
@[simp] theorem State.setStatus_dc (v : Byte) : (s.setStatus v).dc = v.getLsbD 1 := rfl
@[simp] theorem State.setStatus_z (v : Byte) : (s.setStatus v).z = v.getLsbD 2 := rfl
@[simp] theorem State.setStatus_nTO (v : Byte) : (s.setStatus v).nTO = s.nTO := rfl
@[simp] theorem State.setStatus_nPD (v : Byte) : (s.setStatus v).nPD = s.nPD := rfl
@[simp] theorem State.setStatus_gie (v : Byte) : (s.setStatus v).gie = s.gie := rfl
@[simp] theorem State.setStatus_intcon (v : Byte) : (s.setStatus v).intcon = s.intcon := rfl
@[simp] theorem State.setStatus_pcon (v : Byte) : (s.setStatus v).pcon = s.pcon := rfl
@[simp] theorem State.setStatus_optionReg (v : Byte) : (s.setStatus v).optionReg = s.optionReg := rfl
@[simp] theorem State.setStatus_trisA (v : Byte) : (s.setStatus v).trisA = s.trisA := rfl
@[simp] theorem State.setStatus_trisB (v : Byte) : (s.setStatus v).trisB = s.trisB := rfl
@[simp] theorem State.setStatus_trisC (v : Byte) : (s.setStatus v).trisC = s.trisC := rfl
@[simp] theorem State.setStatus_wdt (v : Byte) : (s.setStatus v).wdt = s.wdt := rfl
@[simp] theorem State.setStatus_wdtPre (v : Byte) : (s.setStatus v).wdtPre = s.wdtPre := rfl
@[simp] theorem State.setStatus_stack (v : Byte) : (s.setStatus v).stack = s.stack := rfl
@[simp] theorem State.setStatus_slot15 (v : Byte) : (s.setStatus v).slot15 = s.slot15 := rfl
@[simp] theorem State.setStatus_sleeping (v : Byte) : (s.setStatus v).sleeping = s.sleeping := rfl
@[simp] theorem State.setStatus_ram (v : Byte) : (s.setStatus v).ram = s.ram := rfl
@[simp] theorem State.setStatus_wShad (v : Byte) : (s.setStatus v).wShad = s.wShad := rfl
@[simp] theorem State.setStatus_statusShad (v : Byte) : (s.setStatus v).statusShad = s.statusShad := rfl
@[simp] theorem State.setStatus_bsrShad (v : Byte) : (s.setStatus v).bsrShad = s.bsrShad := rfl
@[simp] theorem State.setStatus_pclathShad (v : Byte) : (s.setStatus v).pclathShad = s.pclathShad := rfl
@[simp] theorem State.setStatus_fsr0Shad (v : Byte) : (s.setStatus v).fsr0Shad = s.fsr0Shad := rfl
@[simp] theorem State.setStatus_fsr1Shad (v : Byte) : (s.setStatus v).fsr1Shad = s.fsr1Shad := rfl
@[simp] theorem State.setStatus_prog (v : Byte) : (s.setStatus v).prog = s.prog := rfl
@[simp] theorem State.setStatus_cfg (v : Byte) : (s.setStatus v).cfg = s.cfg := rfl
@[simp] theorem State.setStatus_periphReq (v : Byte) : (s.setStatus v).periphReq = s.periphReq := rfl
@[simp] theorem State.setStatus_env (v : Byte) : (s.setStatus v).env = s.env := rfl
@[simp] theorem State.setStatus_powerOns (v : Byte) : (s.setStatus v).powerOns = s.powerOns := rfl
@[simp] theorem State.setStatus_intWait (v : Byte) : (s.setStatus v).intWait = s.intWait := rfl
@[simp] theorem State.setStatus_statusPicks (v : Byte) : (s.setStatus v).statusPicks = s.statusPicks := rfl
@[simp] theorem State.setStatus_unwrittenShadows (v : Byte) : (s.setStatus v).unwrittenShadows = s.unwrittenShadows := rfl

-- State.setStatusOpen
@[simp] theorem State.setStatusOpen_w (v : Byte) : (s.setStatusOpen v).w = s.w := rfl
@[simp] theorem State.setStatusOpen_pc (v : Byte) : (s.setStatusOpen v).pc = s.pc := rfl
@[simp] theorem State.setStatusOpen_pclath (v : Byte) : (s.setStatusOpen v).pclath = s.pclath := rfl
@[simp] theorem State.setStatusOpen_bsr (v : Byte) : (s.setStatusOpen v).bsr = s.bsr := rfl
@[simp] theorem State.setStatusOpen_fsr0 (v : Byte) : (s.setStatusOpen v).fsr0 = s.fsr0 := rfl
@[simp] theorem State.setStatusOpen_fsr1 (v : Byte) : (s.setStatusOpen v).fsr1 = s.fsr1 := rfl
@[simp] theorem State.setStatusOpen_c (v : Byte) : (s.setStatusOpen v).c = pickFlag ((Config.statusBitsWritten s.statusPicks).getLsbD 0) (v.getLsbD 0) s.c := rfl
@[simp] theorem State.setStatusOpen_dc (v : Byte) : (s.setStatusOpen v).dc = pickFlag ((Config.statusBitsWritten s.statusPicks).getLsbD 1) (v.getLsbD 1) s.dc := rfl
@[simp] theorem State.setStatusOpen_z (v : Byte) : (s.setStatusOpen v).z = pickFlag ((Config.statusBitsWritten s.statusPicks).getLsbD 2) (v.getLsbD 2) s.z := rfl
@[simp] theorem State.setStatusOpen_nTO (v : Byte) : (s.setStatusOpen v).nTO = s.nTO := rfl
@[simp] theorem State.setStatusOpen_nPD (v : Byte) : (s.setStatusOpen v).nPD = s.nPD := rfl
@[simp] theorem State.setStatusOpen_gie (v : Byte) : (s.setStatusOpen v).gie = s.gie := rfl
@[simp] theorem State.setStatusOpen_intcon (v : Byte) : (s.setStatusOpen v).intcon = s.intcon := rfl
@[simp] theorem State.setStatusOpen_pcon (v : Byte) : (s.setStatusOpen v).pcon = s.pcon := rfl
@[simp] theorem State.setStatusOpen_optionReg (v : Byte) : (s.setStatusOpen v).optionReg = s.optionReg := rfl
@[simp] theorem State.setStatusOpen_trisA (v : Byte) : (s.setStatusOpen v).trisA = s.trisA := rfl
@[simp] theorem State.setStatusOpen_trisB (v : Byte) : (s.setStatusOpen v).trisB = s.trisB := rfl
@[simp] theorem State.setStatusOpen_trisC (v : Byte) : (s.setStatusOpen v).trisC = s.trisC := rfl
@[simp] theorem State.setStatusOpen_wdt (v : Byte) : (s.setStatusOpen v).wdt = s.wdt := rfl
@[simp] theorem State.setStatusOpen_wdtPre (v : Byte) : (s.setStatusOpen v).wdtPre = s.wdtPre := rfl
@[simp] theorem State.setStatusOpen_stack (v : Byte) : (s.setStatusOpen v).stack = s.stack := rfl
@[simp] theorem State.setStatusOpen_slot15 (v : Byte) : (s.setStatusOpen v).slot15 = s.slot15 := rfl
@[simp] theorem State.setStatusOpen_sleeping (v : Byte) : (s.setStatusOpen v).sleeping = s.sleeping := rfl
@[simp] theorem State.setStatusOpen_ram (v : Byte) : (s.setStatusOpen v).ram = s.ram := rfl
@[simp] theorem State.setStatusOpen_wShad (v : Byte) : (s.setStatusOpen v).wShad = s.wShad := rfl
@[simp] theorem State.setStatusOpen_statusShad (v : Byte) : (s.setStatusOpen v).statusShad = s.statusShad := rfl
@[simp] theorem State.setStatusOpen_bsrShad (v : Byte) : (s.setStatusOpen v).bsrShad = s.bsrShad := rfl
@[simp] theorem State.setStatusOpen_pclathShad (v : Byte) : (s.setStatusOpen v).pclathShad = s.pclathShad := rfl
@[simp] theorem State.setStatusOpen_fsr0Shad (v : Byte) : (s.setStatusOpen v).fsr0Shad = s.fsr0Shad := rfl
@[simp] theorem State.setStatusOpen_fsr1Shad (v : Byte) : (s.setStatusOpen v).fsr1Shad = s.fsr1Shad := rfl
@[simp] theorem State.setStatusOpen_prog (v : Byte) : (s.setStatusOpen v).prog = s.prog := rfl
@[simp] theorem State.setStatusOpen_cfg (v : Byte) : (s.setStatusOpen v).cfg = s.cfg := rfl
@[simp] theorem State.setStatusOpen_periphReq (v : Byte) : (s.setStatusOpen v).periphReq = s.periphReq := rfl
@[simp] theorem State.setStatusOpen_env (v : Byte) : (s.setStatusOpen v).env = s.env := rfl
@[simp] theorem State.setStatusOpen_powerOns (v : Byte) : (s.setStatusOpen v).powerOns = s.powerOns := rfl
@[simp] theorem State.setStatusOpen_intWait (v : Byte) : (s.setStatusOpen v).intWait = s.intWait := rfl
@[simp] theorem State.setStatusOpen_statusPicks (v : Byte) : (s.setStatusOpen v).statusPicks = s.statusPicks + 1 := rfl
@[simp] theorem State.setStatusOpen_unwrittenShadows (v : Byte) : (s.setStatusOpen v).unwrittenShadows = s.unwrittenShadows := rfl

-- State.setIntcon
@[simp] theorem State.setIntcon_w (v : Byte) : (s.setIntcon v).w = s.w := rfl
@[simp] theorem State.setIntcon_pc (v : Byte) : (s.setIntcon v).pc = s.pc := rfl
@[simp] theorem State.setIntcon_pclath (v : Byte) : (s.setIntcon v).pclath = s.pclath := rfl
@[simp] theorem State.setIntcon_bsr (v : Byte) : (s.setIntcon v).bsr = s.bsr := rfl
@[simp] theorem State.setIntcon_fsr0 (v : Byte) : (s.setIntcon v).fsr0 = s.fsr0 := rfl
@[simp] theorem State.setIntcon_fsr1 (v : Byte) : (s.setIntcon v).fsr1 = s.fsr1 := rfl
@[simp] theorem State.setIntcon_c (v : Byte) : (s.setIntcon v).c = s.c := rfl
@[simp] theorem State.setIntcon_dc (v : Byte) : (s.setIntcon v).dc = s.dc := rfl
@[simp] theorem State.setIntcon_z (v : Byte) : (s.setIntcon v).z = s.z := rfl
@[simp] theorem State.setIntcon_nTO (v : Byte) : (s.setIntcon v).nTO = s.nTO := rfl
@[simp] theorem State.setIntcon_nPD (v : Byte) : (s.setIntcon v).nPD = s.nPD := rfl
@[simp] theorem State.setIntcon_gie (v : Byte) : (s.setIntcon v).gie = v.getLsbD 7 := rfl
@[simp] theorem State.setIntcon_intcon (v : Byte) : (s.setIntcon v).intcon = v.extractLsb' 1 6 ++ s.intcon.extractLsb' 0 1 := rfl
@[simp] theorem State.setIntcon_pcon (v : Byte) : (s.setIntcon v).pcon = s.pcon := rfl
@[simp] theorem State.setIntcon_optionReg (v : Byte) : (s.setIntcon v).optionReg = s.optionReg := rfl
@[simp] theorem State.setIntcon_trisA (v : Byte) : (s.setIntcon v).trisA = s.trisA := rfl
@[simp] theorem State.setIntcon_trisB (v : Byte) : (s.setIntcon v).trisB = s.trisB := rfl
@[simp] theorem State.setIntcon_trisC (v : Byte) : (s.setIntcon v).trisC = s.trisC := rfl
@[simp] theorem State.setIntcon_wdt (v : Byte) : (s.setIntcon v).wdt = s.wdt := rfl
@[simp] theorem State.setIntcon_wdtPre (v : Byte) : (s.setIntcon v).wdtPre = s.wdtPre := rfl
@[simp] theorem State.setIntcon_stack (v : Byte) : (s.setIntcon v).stack = s.stack := rfl
@[simp] theorem State.setIntcon_slot15 (v : Byte) : (s.setIntcon v).slot15 = s.slot15 := rfl
@[simp] theorem State.setIntcon_sleeping (v : Byte) : (s.setIntcon v).sleeping = s.sleeping := rfl
@[simp] theorem State.setIntcon_ram (v : Byte) : (s.setIntcon v).ram = s.ram := rfl
@[simp] theorem State.setIntcon_wShad (v : Byte) : (s.setIntcon v).wShad = s.wShad := rfl
@[simp] theorem State.setIntcon_statusShad (v : Byte) : (s.setIntcon v).statusShad = s.statusShad := rfl
@[simp] theorem State.setIntcon_bsrShad (v : Byte) : (s.setIntcon v).bsrShad = s.bsrShad := rfl
@[simp] theorem State.setIntcon_pclathShad (v : Byte) : (s.setIntcon v).pclathShad = s.pclathShad := rfl
@[simp] theorem State.setIntcon_fsr0Shad (v : Byte) : (s.setIntcon v).fsr0Shad = s.fsr0Shad := rfl
@[simp] theorem State.setIntcon_fsr1Shad (v : Byte) : (s.setIntcon v).fsr1Shad = s.fsr1Shad := rfl
@[simp] theorem State.setIntcon_prog (v : Byte) : (s.setIntcon v).prog = s.prog := rfl
@[simp] theorem State.setIntcon_cfg (v : Byte) : (s.setIntcon v).cfg = s.cfg := rfl
@[simp] theorem State.setIntcon_periphReq (v : Byte) : (s.setIntcon v).periphReq = s.periphReq := rfl
@[simp] theorem State.setIntcon_env (v : Byte) : (s.setIntcon v).env = s.env := rfl
@[simp] theorem State.setIntcon_powerOns (v : Byte) : (s.setIntcon v).powerOns = s.powerOns := rfl
@[simp] theorem State.setIntcon_intWait (v : Byte) : (s.setIntcon v).intWait = s.intWait := rfl
@[simp] theorem State.setIntcon_statusPicks (v : Byte) : (s.setIntcon v).statusPicks = s.statusPicks := rfl
@[simp] theorem State.setIntcon_unwrittenShadows (v : Byte) : (s.setIntcon v).unwrittenShadows = s.unwrittenShadows := rfl

-- State.dropChoice
@[simp] theorem State.dropChoice_w : s.dropChoice.w = s.w := rfl
@[simp] theorem State.dropChoice_pc : s.dropChoice.pc = s.pc := rfl
@[simp] theorem State.dropChoice_pclath : s.dropChoice.pclath = s.pclath := rfl
@[simp] theorem State.dropChoice_bsr : s.dropChoice.bsr = s.bsr := rfl
@[simp] theorem State.dropChoice_fsr0 : s.dropChoice.fsr0 = s.fsr0 := rfl
@[simp] theorem State.dropChoice_fsr1 : s.dropChoice.fsr1 = s.fsr1 := rfl
@[simp] theorem State.dropChoice_c : s.dropChoice.c = s.c := rfl
@[simp] theorem State.dropChoice_dc : s.dropChoice.dc = s.dc := rfl
@[simp] theorem State.dropChoice_z : s.dropChoice.z = s.z := rfl
@[simp] theorem State.dropChoice_nTO : s.dropChoice.nTO = s.nTO := rfl
@[simp] theorem State.dropChoice_nPD : s.dropChoice.nPD = s.nPD := rfl
@[simp] theorem State.dropChoice_gie : s.dropChoice.gie = s.gie := rfl
@[simp] theorem State.dropChoice_intcon : s.dropChoice.intcon = s.intcon := rfl
@[simp] theorem State.dropChoice_pcon : s.dropChoice.pcon = s.pcon := rfl
@[simp] theorem State.dropChoice_optionReg : s.dropChoice.optionReg = s.optionReg := rfl
@[simp] theorem State.dropChoice_trisA : s.dropChoice.trisA = s.trisA := rfl
@[simp] theorem State.dropChoice_trisB : s.dropChoice.trisB = s.trisB := rfl
@[simp] theorem State.dropChoice_trisC : s.dropChoice.trisC = s.trisC := rfl
@[simp] theorem State.dropChoice_wdt : s.dropChoice.wdt = s.wdt := rfl
@[simp] theorem State.dropChoice_wdtPre : s.dropChoice.wdtPre = s.wdtPre := rfl
@[simp] theorem State.dropChoice_stack : s.dropChoice.stack = s.stack := rfl
@[simp] theorem State.dropChoice_slot15 : s.dropChoice.slot15 = s.slot15 := rfl
@[simp] theorem State.dropChoice_sleeping : s.dropChoice.sleeping = s.sleeping := rfl
@[simp] theorem State.dropChoice_ram : s.dropChoice.ram = s.ram := rfl
@[simp] theorem State.dropChoice_wShad : s.dropChoice.wShad = s.wShad := rfl
@[simp] theorem State.dropChoice_statusShad : s.dropChoice.statusShad = s.statusShad := rfl
@[simp] theorem State.dropChoice_bsrShad : s.dropChoice.bsrShad = s.bsrShad := rfl
@[simp] theorem State.dropChoice_pclathShad : s.dropChoice.pclathShad = s.pclathShad := rfl
@[simp] theorem State.dropChoice_fsr0Shad : s.dropChoice.fsr0Shad = s.fsr0Shad := rfl
@[simp] theorem State.dropChoice_fsr1Shad : s.dropChoice.fsr1Shad = s.fsr1Shad := rfl
@[simp] theorem State.dropChoice_prog : s.dropChoice.prog = s.prog := rfl
@[simp] theorem State.dropChoice_cfg : s.dropChoice.cfg = s.cfg := rfl
@[simp] theorem State.dropChoice_periphReq : s.dropChoice.periphReq = s.periphReq := rfl
@[simp] theorem State.dropChoice_env : s.dropChoice.env = s.env.tail := rfl
@[simp] theorem State.dropChoice_powerOns : s.dropChoice.powerOns = s.powerOns := rfl
@[simp] theorem State.dropChoice_intWait : s.dropChoice.intWait = s.intWait := rfl
@[simp] theorem State.dropChoice_statusPicks : s.dropChoice.statusPicks = s.statusPicks := rfl
@[simp] theorem State.dropChoice_unwrittenShadows : s.dropChoice.unwrittenShadows = s.unwrittenShadows := rfl

-- State.setInputs
@[simp] theorem State.setInputs_w (e : EnvChoice) : (s.setInputs e).w = s.w := rfl
@[simp] theorem State.setInputs_pc (e : EnvChoice) : (s.setInputs e).pc = s.pc := rfl
@[simp] theorem State.setInputs_pclath (e : EnvChoice) : (s.setInputs e).pclath = s.pclath := rfl
@[simp] theorem State.setInputs_bsr (e : EnvChoice) : (s.setInputs e).bsr = s.bsr := rfl
@[simp] theorem State.setInputs_fsr0 (e : EnvChoice) : (s.setInputs e).fsr0 = s.fsr0 := rfl
@[simp] theorem State.setInputs_fsr1 (e : EnvChoice) : (s.setInputs e).fsr1 = s.fsr1 := rfl
@[simp] theorem State.setInputs_c (e : EnvChoice) : (s.setInputs e).c = s.c := rfl
@[simp] theorem State.setInputs_dc (e : EnvChoice) : (s.setInputs e).dc = s.dc := rfl
@[simp] theorem State.setInputs_z (e : EnvChoice) : (s.setInputs e).z = s.z := rfl
@[simp] theorem State.setInputs_nTO (e : EnvChoice) : (s.setInputs e).nTO = s.nTO := rfl
@[simp] theorem State.setInputs_nPD (e : EnvChoice) : (s.setInputs e).nPD = s.nPD := rfl
@[simp] theorem State.setInputs_gie (e : EnvChoice) : (s.setInputs e).gie = s.gie := rfl
@[simp] theorem State.setInputs_intcon (e : EnvChoice) : (s.setInputs e).intcon = s.intcon ||| (0b0000#4 ++ BitVec.ofBool e.setTmr0if ++ BitVec.ofBool e.setIntf ++ BitVec.ofBool e.setIocif) := rfl
@[simp] theorem State.setInputs_pcon (e : EnvChoice) : (s.setInputs e).pcon = s.pcon := rfl
@[simp] theorem State.setInputs_optionReg (e : EnvChoice) : (s.setInputs e).optionReg = s.optionReg := rfl
@[simp] theorem State.setInputs_trisA (e : EnvChoice) : (s.setInputs e).trisA = s.trisA := rfl
@[simp] theorem State.setInputs_trisB (e : EnvChoice) : (s.setInputs e).trisB = s.trisB := rfl
@[simp] theorem State.setInputs_trisC (e : EnvChoice) : (s.setInputs e).trisC = s.trisC := rfl
@[simp] theorem State.setInputs_wdt (e : EnvChoice) : (s.setInputs e).wdt = s.wdt := rfl
@[simp] theorem State.setInputs_wdtPre (e : EnvChoice) : (s.setInputs e).wdtPre = s.wdtPre := rfl
@[simp] theorem State.setInputs_stack (e : EnvChoice) : (s.setInputs e).stack = s.stack := rfl
@[simp] theorem State.setInputs_slot15 (e : EnvChoice) : (s.setInputs e).slot15 = s.slot15 := rfl
@[simp] theorem State.setInputs_sleeping (e : EnvChoice) : (s.setInputs e).sleeping = s.sleeping := rfl
@[simp] theorem State.setInputs_ram (e : EnvChoice) : (s.setInputs e).ram = s.ram := rfl
@[simp] theorem State.setInputs_wShad (e : EnvChoice) : (s.setInputs e).wShad = s.wShad := rfl
@[simp] theorem State.setInputs_statusShad (e : EnvChoice) : (s.setInputs e).statusShad = s.statusShad := rfl
@[simp] theorem State.setInputs_bsrShad (e : EnvChoice) : (s.setInputs e).bsrShad = s.bsrShad := rfl
@[simp] theorem State.setInputs_pclathShad (e : EnvChoice) : (s.setInputs e).pclathShad = s.pclathShad := rfl
@[simp] theorem State.setInputs_fsr0Shad (e : EnvChoice) : (s.setInputs e).fsr0Shad = s.fsr0Shad := rfl
@[simp] theorem State.setInputs_fsr1Shad (e : EnvChoice) : (s.setInputs e).fsr1Shad = s.fsr1Shad := rfl
@[simp] theorem State.setInputs_prog (e : EnvChoice) : (s.setInputs e).prog = s.prog := rfl
@[simp] theorem State.setInputs_cfg (e : EnvChoice) : (s.setInputs e).cfg = s.cfg := rfl
@[simp] theorem State.setInputs_periphReq (e : EnvChoice) : (s.setInputs e).periphReq = e.periph.getD s.periphReq := rfl
@[simp] theorem State.setInputs_env (e : EnvChoice) : (s.setInputs e).env = s.env := rfl
@[simp] theorem State.setInputs_powerOns (e : EnvChoice) : (s.setInputs e).powerOns = s.powerOns := rfl
@[simp] theorem State.setInputs_intWait (e : EnvChoice) : (s.setInputs e).intWait = s.intWait := rfl
@[simp] theorem State.setInputs_statusPicks (e : EnvChoice) : (s.setInputs e).statusPicks = s.statusPicks := rfl
@[simp] theorem State.setInputs_unwrittenShadows (e : EnvChoice) : (s.setInputs e).unwrittenShadows = s.unwrittenShadows := rfl

-- State.tick
@[simp] theorem State.tick_w : s.tick.w = s.w := rfl
@[simp] theorem State.tick_pc : s.tick.pc = s.pc := rfl
@[simp] theorem State.tick_pclath : s.tick.pclath = s.pclath := rfl
@[simp] theorem State.tick_bsr : s.tick.bsr = s.bsr := rfl
@[simp] theorem State.tick_fsr0 : s.tick.fsr0 = s.fsr0 := rfl
@[simp] theorem State.tick_fsr1 : s.tick.fsr1 = s.fsr1 := rfl
@[simp] theorem State.tick_c : s.tick.c = s.c := rfl
@[simp] theorem State.tick_dc : s.tick.dc = s.dc := rfl
@[simp] theorem State.tick_z : s.tick.z = s.z := rfl
@[simp] theorem State.tick_nTO : s.tick.nTO = s.nTO := rfl
@[simp] theorem State.tick_nPD : s.tick.nPD = s.nPD := rfl
@[simp] theorem State.tick_gie : s.tick.gie = s.gie := rfl
@[simp] theorem State.tick_intcon : s.tick.intcon = s.intcon := rfl
@[simp] theorem State.tick_pcon : s.tick.pcon = s.pcon := rfl
@[simp] theorem State.tick_optionReg : s.tick.optionReg = s.optionReg := rfl
@[simp] theorem State.tick_trisA : s.tick.trisA = s.trisA := rfl
@[simp] theorem State.tick_trisB : s.tick.trisB = s.trisB := rfl
@[simp] theorem State.tick_trisC : s.tick.trisC = s.trisC := rfl
@[simp] theorem State.tick_wdt : s.tick.wdt = s.wdt + 1 := rfl
@[simp] theorem State.tick_wdtPre : s.tick.wdtPre = s.wdtPre + 1 := rfl
@[simp] theorem State.tick_stack : s.tick.stack = s.stack := rfl
@[simp] theorem State.tick_slot15 : s.tick.slot15 = s.slot15 := rfl
@[simp] theorem State.tick_sleeping : s.tick.sleeping = s.sleeping := rfl
@[simp] theorem State.tick_ram : s.tick.ram = s.ram := rfl
@[simp] theorem State.tick_wShad : s.tick.wShad = s.wShad := rfl
@[simp] theorem State.tick_statusShad : s.tick.statusShad = s.statusShad := rfl
@[simp] theorem State.tick_bsrShad : s.tick.bsrShad = s.bsrShad := rfl
@[simp] theorem State.tick_pclathShad : s.tick.pclathShad = s.pclathShad := rfl
@[simp] theorem State.tick_fsr0Shad : s.tick.fsr0Shad = s.fsr0Shad := rfl
@[simp] theorem State.tick_fsr1Shad : s.tick.fsr1Shad = s.fsr1Shad := rfl
@[simp] theorem State.tick_prog : s.tick.prog = s.prog := rfl
@[simp] theorem State.tick_cfg : s.tick.cfg = s.cfg := rfl
@[simp] theorem State.tick_periphReq : s.tick.periphReq = s.periphReq := rfl
@[simp] theorem State.tick_env : s.tick.env = s.env := rfl
@[simp] theorem State.tick_powerOns : s.tick.powerOns = s.powerOns := rfl
@[simp] theorem State.tick_intWait : s.tick.intWait = s.intWait := rfl
@[simp] theorem State.tick_statusPicks : s.tick.statusPicks = s.statusPicks := rfl
@[simp] theorem State.tick_unwrittenShadows : s.tick.unwrittenShadows = s.unwrittenShadows := rfl

-- State.forCore
@[simp] theorem State.forCore_w (n : Nat) : (s.forCore n).w = s.w := rfl
@[simp] theorem State.forCore_pc (n : Nat) : (s.forCore n).pc = s.pc := rfl
@[simp] theorem State.forCore_pclath (n : Nat) : (s.forCore n).pclath = s.pclath := rfl
@[simp] theorem State.forCore_bsr (n : Nat) : (s.forCore n).bsr = s.bsr := rfl
@[simp] theorem State.forCore_fsr0 (n : Nat) : (s.forCore n).fsr0 = s.fsr0 := rfl
@[simp] theorem State.forCore_fsr1 (n : Nat) : (s.forCore n).fsr1 = s.fsr1 := rfl
@[simp] theorem State.forCore_c (n : Nat) : (s.forCore n).c = s.c := rfl
@[simp] theorem State.forCore_dc (n : Nat) : (s.forCore n).dc = s.dc := rfl
@[simp] theorem State.forCore_z (n : Nat) : (s.forCore n).z = s.z := rfl
@[simp] theorem State.forCore_nTO (n : Nat) : (s.forCore n).nTO = s.nTO := rfl
@[simp] theorem State.forCore_nPD (n : Nat) : (s.forCore n).nPD = s.nPD := rfl
@[simp] theorem State.forCore_gie (n : Nat) : (s.forCore n).gie = s.gie := rfl
@[simp] theorem State.forCore_intcon (n : Nat) : (s.forCore n).intcon = s.intcon := rfl
@[simp] theorem State.forCore_pcon (n : Nat) : (s.forCore n).pcon = s.pcon := rfl
@[simp] theorem State.forCore_optionReg (n : Nat) : (s.forCore n).optionReg = s.optionReg := rfl
@[simp] theorem State.forCore_trisA (n : Nat) : (s.forCore n).trisA = s.trisA := rfl
@[simp] theorem State.forCore_trisB (n : Nat) : (s.forCore n).trisB = s.trisB := rfl
@[simp] theorem State.forCore_trisC (n : Nat) : (s.forCore n).trisC = s.trisC := rfl
@[simp] theorem State.forCore_wdt (n : Nat) : (s.forCore n).wdt = s.wdt + 1 := rfl
@[simp] theorem State.forCore_wdtPre (n : Nat) : (s.forCore n).wdtPre = s.wdtPre + 1 := rfl
@[simp] theorem State.forCore_stack (n : Nat) : (s.forCore n).stack = s.stack := rfl
@[simp] theorem State.forCore_slot15 (n : Nat) : (s.forCore n).slot15 = s.slot15 := rfl
@[simp] theorem State.forCore_sleeping (n : Nat) : (s.forCore n).sleeping = s.sleeping := rfl
@[simp] theorem State.forCore_ram (n : Nat) : (s.forCore n).ram = s.ram := rfl
@[simp] theorem State.forCore_wShad (n : Nat) : (s.forCore n).wShad = s.wShad := rfl
@[simp] theorem State.forCore_statusShad (n : Nat) : (s.forCore n).statusShad = s.statusShad := rfl
@[simp] theorem State.forCore_bsrShad (n : Nat) : (s.forCore n).bsrShad = s.bsrShad := rfl
@[simp] theorem State.forCore_pclathShad (n : Nat) : (s.forCore n).pclathShad = s.pclathShad := rfl
@[simp] theorem State.forCore_fsr0Shad (n : Nat) : (s.forCore n).fsr0Shad = s.fsr0Shad := rfl
@[simp] theorem State.forCore_fsr1Shad (n : Nat) : (s.forCore n).fsr1Shad = s.fsr1Shad := rfl
@[simp] theorem State.forCore_prog (n : Nat) : (s.forCore n).prog = s.prog := rfl
@[simp] theorem State.forCore_cfg (n : Nat) : (s.forCore n).cfg = s.cfg := rfl
@[simp] theorem State.forCore_periphReq (n : Nat) : (s.forCore n).periphReq = s.periphReq := rfl
@[simp] theorem State.forCore_env (n : Nat) : (s.forCore n).env = s.env := rfl
@[simp] theorem State.forCore_powerOns (n : Nat) : (s.forCore n).powerOns = s.powerOns := rfl
@[simp] theorem State.forCore_intWait (n : Nat) : (s.forCore n).intWait = n := rfl
@[simp] theorem State.forCore_statusPicks (n : Nat) : (s.forCore n).statusPicks = s.statusPicks := rfl
@[simp] theorem State.forCore_unwrittenShadows (n : Nat) : (s.forCore n).unwrittenShadows = s.unwrittenShadows := rfl

-- State.resetTo
@[simp] theorem State.resetTo_w (col : ResetColumn) (e : CauseEntries) : (s.resetTo col e).w = col.w.getD s.w := rfl
@[simp] theorem State.resetTo_pc (col : ResetColumn) (e : CauseEntries) : (s.resetTo col e).pc = s.cfg.resetVector := rfl
@[simp] theorem State.resetTo_pclath (col : ResetColumn) (e : CauseEntries) : (s.resetTo col e).pclath = col.pclath.getD s.pclath := rfl
@[simp] theorem State.resetTo_bsr (col : ResetColumn) (e : CauseEntries) : (s.resetTo col e).bsr = col.bsr.getD s.bsr := rfl
@[simp] theorem State.resetTo_fsr0 (col : ResetColumn) (e : CauseEntries) : (s.resetTo col e).fsr0 = col.fsr0.getD s.fsr0 := rfl
@[simp] theorem State.resetTo_fsr1 (col : ResetColumn) (e : CauseEntries) : (s.resetTo col e).fsr1 = col.fsr1.getD s.fsr1 := rfl
@[simp] theorem State.resetTo_c (col : ResetColumn) (e : CauseEntries) : (s.resetTo col e).c = col.c.getD s.c := rfl
@[simp] theorem State.resetTo_dc (col : ResetColumn) (e : CauseEntries) : (s.resetTo col e).dc = col.dc.getD s.dc := rfl
@[simp] theorem State.resetTo_z (col : ResetColumn) (e : CauseEntries) : (s.resetTo col e).z = col.z.getD s.z := rfl
@[simp] theorem State.resetTo_nTO (col : ResetColumn) (e : CauseEntries) : (s.resetTo col e).nTO = e.nTO.getD s.nTO := rfl
@[simp] theorem State.resetTo_nPD (col : ResetColumn) (e : CauseEntries) : (s.resetTo col e).nPD = e.nPD.getD s.nPD := rfl
@[simp] theorem State.resetTo_gie (col : ResetColumn) (e : CauseEntries) : (s.resetTo col e).gie = col.gie.getD s.gie := rfl
@[simp] theorem State.resetTo_intcon (col : ResetColumn) (e : CauseEntries) : (s.resetTo col e).intcon = col.intcon.getD s.intcon := rfl
@[simp] theorem State.resetTo_pcon (col : ResetColumn) (e : CauseEntries) : (s.resetTo col e).pcon = CauseEntries.pcon e s.pcon := rfl
@[simp] theorem State.resetTo_optionReg (col : ResetColumn) (e : CauseEntries) : (s.resetTo col e).optionReg = col.optionReg.getD s.optionReg := rfl
@[simp] theorem State.resetTo_trisA (col : ResetColumn) (e : CauseEntries) : (s.resetTo col e).trisA = col.trisA.getD s.trisA := rfl
@[simp] theorem State.resetTo_trisB (col : ResetColumn) (e : CauseEntries) : (s.resetTo col e).trisB = col.trisB.getD s.trisB := rfl
@[simp] theorem State.resetTo_trisC (col : ResetColumn) (e : CauseEntries) : (s.resetTo col e).trisC = col.trisC.getD s.trisC := rfl
@[simp] theorem State.resetTo_wdt (col : ResetColumn) (e : CauseEntries) : (s.resetTo col e).wdt = col.wdt := rfl
@[simp] theorem State.resetTo_wdtPre (col : ResetColumn) (e : CauseEntries) : (s.resetTo col e).wdtPre = col.wdtPre := rfl
@[simp] theorem State.resetTo_stack (col : ResetColumn) (e : CauseEntries) : (s.resetTo col e).stack = col.stack := rfl
@[simp] theorem State.resetTo_slot15 (col : ResetColumn) (e : CauseEntries) : (s.resetTo col e).slot15 = col.slot15.getD s.slot15 := rfl
@[simp] theorem State.resetTo_sleeping (col : ResetColumn) (e : CauseEntries) : (s.resetTo col e).sleeping = col.sleeping := rfl
@[simp] theorem State.resetTo_ram (col : ResetColumn) (e : CauseEntries) : (s.resetTo col e).ram = s.ram := rfl
@[simp] theorem State.resetTo_wShad (col : ResetColumn) (e : CauseEntries) : (s.resetTo col e).wShad = col.wShad.getD s.wShad := rfl
@[simp] theorem State.resetTo_statusShad (col : ResetColumn) (e : CauseEntries) : (s.resetTo col e).statusShad = col.statusShad.getD s.statusShad := rfl
@[simp] theorem State.resetTo_bsrShad (col : ResetColumn) (e : CauseEntries) : (s.resetTo col e).bsrShad = col.bsrShad.getD s.bsrShad := rfl
@[simp] theorem State.resetTo_pclathShad (col : ResetColumn) (e : CauseEntries) : (s.resetTo col e).pclathShad = col.pclathShad.getD s.pclathShad := rfl
@[simp] theorem State.resetTo_fsr0Shad (col : ResetColumn) (e : CauseEntries) : (s.resetTo col e).fsr0Shad = col.fsr0Shad.getD s.fsr0Shad := rfl
@[simp] theorem State.resetTo_fsr1Shad (col : ResetColumn) (e : CauseEntries) : (s.resetTo col e).fsr1Shad = col.fsr1Shad.getD s.fsr1Shad := rfl
@[simp] theorem State.resetTo_prog (col : ResetColumn) (e : CauseEntries) : (s.resetTo col e).prog = s.prog := rfl
@[simp] theorem State.resetTo_cfg (col : ResetColumn) (e : CauseEntries) : (s.resetTo col e).cfg = s.cfg := rfl
@[simp] theorem State.resetTo_periphReq (col : ResetColumn) (e : CauseEntries) : (s.resetTo col e).periphReq = s.periphReq := rfl
@[simp] theorem State.resetTo_env (col : ResetColumn) (e : CauseEntries) : (s.resetTo col e).env = s.env := rfl
@[simp] theorem State.resetTo_powerOns (col : ResetColumn) (e : CauseEntries) : (s.resetTo col e).powerOns = s.powerOns := rfl
@[simp] theorem State.resetTo_intWait (col : ResetColumn) (e : CauseEntries) : (s.resetTo col e).intWait = 0 := rfl
@[simp] theorem State.resetTo_statusPicks (col : ResetColumn) (e : CauseEntries) : (s.resetTo col e).statusPicks = s.statusPicks := rfl
@[simp] theorem State.resetTo_unwrittenShadows (col : ResetColumn) (e : CauseEntries) : (s.resetTo col e).unwrittenShadows = s.unwrittenShadows.filter fun r => !givesShadow col r := rfl

-- State.setFsr
@[simp] theorem State.setFsr_w (n : FsrSel) (p : Ptr) : (s.setFsr n p).w = s.w := by cases n <;> rfl
@[simp] theorem State.setFsr_pc (n : FsrSel) (p : Ptr) : (s.setFsr n p).pc = s.pc := by cases n <;> rfl
@[simp] theorem State.setFsr_pclath (n : FsrSel) (p : Ptr) : (s.setFsr n p).pclath = s.pclath := by cases n <;> rfl
@[simp] theorem State.setFsr_bsr (n : FsrSel) (p : Ptr) : (s.setFsr n p).bsr = s.bsr := by cases n <;> rfl
@[simp] theorem State.setFsr_c (n : FsrSel) (p : Ptr) : (s.setFsr n p).c = s.c := by cases n <;> rfl
@[simp] theorem State.setFsr_dc (n : FsrSel) (p : Ptr) : (s.setFsr n p).dc = s.dc := by cases n <;> rfl
@[simp] theorem State.setFsr_z (n : FsrSel) (p : Ptr) : (s.setFsr n p).z = s.z := by cases n <;> rfl
@[simp] theorem State.setFsr_nTO (n : FsrSel) (p : Ptr) : (s.setFsr n p).nTO = s.nTO := by cases n <;> rfl
@[simp] theorem State.setFsr_nPD (n : FsrSel) (p : Ptr) : (s.setFsr n p).nPD = s.nPD := by cases n <;> rfl
@[simp] theorem State.setFsr_gie (n : FsrSel) (p : Ptr) : (s.setFsr n p).gie = s.gie := by cases n <;> rfl
@[simp] theorem State.setFsr_intcon (n : FsrSel) (p : Ptr) : (s.setFsr n p).intcon = s.intcon := by cases n <;> rfl
@[simp] theorem State.setFsr_pcon (n : FsrSel) (p : Ptr) : (s.setFsr n p).pcon = s.pcon := by cases n <;> rfl
@[simp] theorem State.setFsr_optionReg (n : FsrSel) (p : Ptr) : (s.setFsr n p).optionReg = s.optionReg := by cases n <;> rfl
@[simp] theorem State.setFsr_trisA (n : FsrSel) (p : Ptr) : (s.setFsr n p).trisA = s.trisA := by cases n <;> rfl
@[simp] theorem State.setFsr_trisB (n : FsrSel) (p : Ptr) : (s.setFsr n p).trisB = s.trisB := by cases n <;> rfl
@[simp] theorem State.setFsr_trisC (n : FsrSel) (p : Ptr) : (s.setFsr n p).trisC = s.trisC := by cases n <;> rfl
@[simp] theorem State.setFsr_wdt (n : FsrSel) (p : Ptr) : (s.setFsr n p).wdt = s.wdt := by cases n <;> rfl
@[simp] theorem State.setFsr_wdtPre (n : FsrSel) (p : Ptr) : (s.setFsr n p).wdtPre = s.wdtPre := by cases n <;> rfl
@[simp] theorem State.setFsr_stack (n : FsrSel) (p : Ptr) : (s.setFsr n p).stack = s.stack := by cases n <;> rfl
@[simp] theorem State.setFsr_slot15 (n : FsrSel) (p : Ptr) : (s.setFsr n p).slot15 = s.slot15 := by cases n <;> rfl
@[simp] theorem State.setFsr_sleeping (n : FsrSel) (p : Ptr) : (s.setFsr n p).sleeping = s.sleeping := by cases n <;> rfl
@[simp] theorem State.setFsr_ram (n : FsrSel) (p : Ptr) : (s.setFsr n p).ram = s.ram := by cases n <;> rfl
@[simp] theorem State.setFsr_wShad (n : FsrSel) (p : Ptr) : (s.setFsr n p).wShad = s.wShad := by cases n <;> rfl
@[simp] theorem State.setFsr_statusShad (n : FsrSel) (p : Ptr) : (s.setFsr n p).statusShad = s.statusShad := by cases n <;> rfl
@[simp] theorem State.setFsr_bsrShad (n : FsrSel) (p : Ptr) : (s.setFsr n p).bsrShad = s.bsrShad := by cases n <;> rfl
@[simp] theorem State.setFsr_pclathShad (n : FsrSel) (p : Ptr) : (s.setFsr n p).pclathShad = s.pclathShad := by cases n <;> rfl
@[simp] theorem State.setFsr_fsr0Shad (n : FsrSel) (p : Ptr) : (s.setFsr n p).fsr0Shad = s.fsr0Shad := by cases n <;> rfl
@[simp] theorem State.setFsr_fsr1Shad (n : FsrSel) (p : Ptr) : (s.setFsr n p).fsr1Shad = s.fsr1Shad := by cases n <;> rfl
@[simp] theorem State.setFsr_prog (n : FsrSel) (p : Ptr) : (s.setFsr n p).prog = s.prog := by cases n <;> rfl
@[simp] theorem State.setFsr_cfg (n : FsrSel) (p : Ptr) : (s.setFsr n p).cfg = s.cfg := by cases n <;> rfl
@[simp] theorem State.setFsr_periphReq (n : FsrSel) (p : Ptr) : (s.setFsr n p).periphReq = s.periphReq := by cases n <;> rfl
@[simp] theorem State.setFsr_env (n : FsrSel) (p : Ptr) : (s.setFsr n p).env = s.env := by cases n <;> rfl
@[simp] theorem State.setFsr_powerOns (n : FsrSel) (p : Ptr) : (s.setFsr n p).powerOns = s.powerOns := by cases n <;> rfl
@[simp] theorem State.setFsr_intWait (n : FsrSel) (p : Ptr) : (s.setFsr n p).intWait = s.intWait := by cases n <;> rfl
@[simp] theorem State.setFsr_statusPicks (n : FsrSel) (p : Ptr) : (s.setFsr n p).statusPicks = s.statusPicks := by cases n <;> rfl
@[simp] theorem State.setFsr_unwrittenShadows (n : FsrSel) (p : Ptr) : (s.setFsr n p).unwrittenShadows = s.unwrittenShadows := by cases n <;> rfl
@[simp] theorem State.setFsr_fsr0_fsr0 (p : Ptr) : (s.setFsr .fsr0 p).fsr0 = p := rfl
@[simp] theorem State.setFsr_fsr0_fsr1 (p : Ptr) : (s.setFsr .fsr0 p).fsr1 = s.fsr1 := rfl
@[simp] theorem State.setFsr_fsr1_fsr0 (p : Ptr) : (s.setFsr .fsr1 p).fsr0 = s.fsr0 := rfl
@[simp] theorem State.setFsr_fsr1_fsr1 (p : Ptr) : (s.setFsr .fsr1 p).fsr1 = p := rfl
@[simp] theorem State.fsr_setFsr (n : FsrSel) (p : Ptr) : (s.setFsr n p).fsr n = p := by cases n <;> rfl
@[simp] theorem State.fsr_fsr0 : s.fsr .fsr0 = s.fsr0 := rfl
@[simp] theorem State.fsr_fsr1 : s.fsr .fsr1 = s.fsr1 := rfl

-- State.saveContext: only the shadow registers move
@[simp] theorem State.saveContext_w : s.saveContext.w = s.w := by unfold State.saveContext; split <;> rfl
@[simp] theorem State.saveContext_pc : s.saveContext.pc = s.pc := by unfold State.saveContext; split <;> rfl
@[simp] theorem State.saveContext_pclath : s.saveContext.pclath = s.pclath := by unfold State.saveContext; split <;> rfl
@[simp] theorem State.saveContext_bsr : s.saveContext.bsr = s.bsr := by unfold State.saveContext; split <;> rfl
@[simp] theorem State.saveContext_fsr0 : s.saveContext.fsr0 = s.fsr0 := by unfold State.saveContext; split <;> rfl
@[simp] theorem State.saveContext_fsr1 : s.saveContext.fsr1 = s.fsr1 := by unfold State.saveContext; split <;> rfl
@[simp] theorem State.saveContext_c : s.saveContext.c = s.c := by unfold State.saveContext; split <;> rfl
@[simp] theorem State.saveContext_dc : s.saveContext.dc = s.dc := by unfold State.saveContext; split <;> rfl
@[simp] theorem State.saveContext_z : s.saveContext.z = s.z := by unfold State.saveContext; split <;> rfl
@[simp] theorem State.saveContext_nTO : s.saveContext.nTO = s.nTO := by unfold State.saveContext; split <;> rfl
@[simp] theorem State.saveContext_nPD : s.saveContext.nPD = s.nPD := by unfold State.saveContext; split <;> rfl
@[simp] theorem State.saveContext_gie : s.saveContext.gie = s.gie := by unfold State.saveContext; split <;> rfl
@[simp] theorem State.saveContext_intcon : s.saveContext.intcon = s.intcon := by unfold State.saveContext; split <;> rfl
@[simp] theorem State.saveContext_pcon : s.saveContext.pcon = s.pcon := by unfold State.saveContext; split <;> rfl
@[simp] theorem State.saveContext_optionReg : s.saveContext.optionReg = s.optionReg := by unfold State.saveContext; split <;> rfl
@[simp] theorem State.saveContext_trisA : s.saveContext.trisA = s.trisA := by unfold State.saveContext; split <;> rfl
@[simp] theorem State.saveContext_trisB : s.saveContext.trisB = s.trisB := by unfold State.saveContext; split <;> rfl
@[simp] theorem State.saveContext_trisC : s.saveContext.trisC = s.trisC := by unfold State.saveContext; split <;> rfl
@[simp] theorem State.saveContext_wdt : s.saveContext.wdt = s.wdt := by unfold State.saveContext; split <;> rfl
@[simp] theorem State.saveContext_wdtPre : s.saveContext.wdtPre = s.wdtPre := by unfold State.saveContext; split <;> rfl
@[simp] theorem State.saveContext_stack : s.saveContext.stack = s.stack := by unfold State.saveContext; split <;> rfl
@[simp] theorem State.saveContext_slot15 : s.saveContext.slot15 = s.slot15 := by unfold State.saveContext; split <;> rfl
@[simp] theorem State.saveContext_sleeping : s.saveContext.sleeping = s.sleeping := by unfold State.saveContext; split <;> rfl
@[simp] theorem State.saveContext_ram : s.saveContext.ram = s.ram := by unfold State.saveContext; split <;> rfl
@[simp] theorem State.saveContext_prog : s.saveContext.prog = s.prog := by unfold State.saveContext; split <;> rfl
@[simp] theorem State.saveContext_cfg : s.saveContext.cfg = s.cfg := by unfold State.saveContext; split <;> rfl
@[simp] theorem State.saveContext_periphReq : s.saveContext.periphReq = s.periphReq := by unfold State.saveContext; split <;> rfl
@[simp] theorem State.saveContext_env : s.saveContext.env = s.env := by unfold State.saveContext; split <;> rfl
@[simp] theorem State.saveContext_powerOns : s.saveContext.powerOns = s.powerOns := by unfold State.saveContext; split <;> rfl
@[simp] theorem State.saveContext_intWait : s.saveContext.intWait = s.intWait := by unfold State.saveContext; split <;> rfl
@[simp] theorem State.saveContext_statusPicks : s.saveContext.statusPicks = s.statusPicks := by unfold State.saveContext; split <;> rfl

-- State.restoreContext: only the restored registers move
@[simp] theorem State.restoreContext_pc : s.restoreContext.pc = s.pc := by unfold State.restoreContext; split <;> rfl
@[simp] theorem State.restoreContext_nTO : s.restoreContext.nTO = s.nTO := by unfold State.restoreContext; split <;> rfl
@[simp] theorem State.restoreContext_nPD : s.restoreContext.nPD = s.nPD := by unfold State.restoreContext; split <;> rfl
@[simp] theorem State.restoreContext_gie : s.restoreContext.gie = s.gie := by unfold State.restoreContext; split <;> rfl
@[simp] theorem State.restoreContext_intcon : s.restoreContext.intcon = s.intcon := by unfold State.restoreContext; split <;> rfl
@[simp] theorem State.restoreContext_pcon : s.restoreContext.pcon = s.pcon := by unfold State.restoreContext; split <;> rfl
@[simp] theorem State.restoreContext_optionReg : s.restoreContext.optionReg = s.optionReg := by unfold State.restoreContext; split <;> rfl
@[simp] theorem State.restoreContext_trisA : s.restoreContext.trisA = s.trisA := by unfold State.restoreContext; split <;> rfl
@[simp] theorem State.restoreContext_trisB : s.restoreContext.trisB = s.trisB := by unfold State.restoreContext; split <;> rfl
@[simp] theorem State.restoreContext_trisC : s.restoreContext.trisC = s.trisC := by unfold State.restoreContext; split <;> rfl
@[simp] theorem State.restoreContext_wdt : s.restoreContext.wdt = s.wdt := by unfold State.restoreContext; split <;> rfl
@[simp] theorem State.restoreContext_wdtPre : s.restoreContext.wdtPre = s.wdtPre := by unfold State.restoreContext; split <;> rfl
@[simp] theorem State.restoreContext_stack : s.restoreContext.stack = s.stack := by unfold State.restoreContext; split <;> rfl
@[simp] theorem State.restoreContext_slot15 : s.restoreContext.slot15 = s.slot15 := by unfold State.restoreContext; split <;> rfl
@[simp] theorem State.restoreContext_sleeping : s.restoreContext.sleeping = s.sleeping := by unfold State.restoreContext; split <;> rfl
@[simp] theorem State.restoreContext_ram : s.restoreContext.ram = s.ram := by unfold State.restoreContext; split <;> rfl
@[simp] theorem State.restoreContext_wShad : s.restoreContext.wShad = s.wShad := by unfold State.restoreContext; split <;> rfl
@[simp] theorem State.restoreContext_statusShad : s.restoreContext.statusShad = s.statusShad := by unfold State.restoreContext; split <;> rfl
@[simp] theorem State.restoreContext_bsrShad : s.restoreContext.bsrShad = s.bsrShad := by unfold State.restoreContext; split <;> rfl
@[simp] theorem State.restoreContext_pclathShad : s.restoreContext.pclathShad = s.pclathShad := by unfold State.restoreContext; split <;> rfl
@[simp] theorem State.restoreContext_fsr0Shad : s.restoreContext.fsr0Shad = s.fsr0Shad := by unfold State.restoreContext; split <;> rfl
@[simp] theorem State.restoreContext_fsr1Shad : s.restoreContext.fsr1Shad = s.fsr1Shad := by unfold State.restoreContext; split <;> rfl
@[simp] theorem State.restoreContext_prog : s.restoreContext.prog = s.prog := by unfold State.restoreContext; split <;> rfl
@[simp] theorem State.restoreContext_cfg : s.restoreContext.cfg = s.cfg := by unfold State.restoreContext; split <;> rfl
@[simp] theorem State.restoreContext_periphReq : s.restoreContext.periphReq = s.periphReq := by unfold State.restoreContext; split <;> rfl
@[simp] theorem State.restoreContext_env : s.restoreContext.env = s.env := by unfold State.restoreContext; split <;> rfl
@[simp] theorem State.restoreContext_powerOns : s.restoreContext.powerOns = s.powerOns := by unfold State.restoreContext; split <;> rfl
@[simp] theorem State.restoreContext_intWait : s.restoreContext.intWait = s.intWait := by unfold State.restoreContext; split <;> rfl
@[simp] theorem State.restoreContext_statusPicks : s.restoreContext.statusPicks = s.statusPicks := by unfold State.restoreContext; split <;> rfl
@[simp] theorem State.restoreContext_unwrittenShadows : s.restoreContext.unwrittenShadows = s.unwrittenShadows := by unfold State.restoreContext; split <;> rfl

-- State.forgetAll: what is there besides registers and RAM
@[simp] theorem State.forgetAll_pc : s.forgetAll.pc = s.pc := rfl
@[simp] theorem State.forgetAll_wdt : s.forgetAll.wdt = s.wdt := rfl
@[simp] theorem State.forgetAll_wdtPre : s.forgetAll.wdtPre = s.wdtPre := rfl
@[simp] theorem State.forgetAll_stack : s.forgetAll.stack = s.stack := rfl
@[simp] theorem State.forgetAll_sleeping : s.forgetAll.sleeping = s.sleeping := rfl
@[simp] theorem State.forgetAll_prog : s.forgetAll.prog = s.prog := rfl
@[simp] theorem State.forgetAll_cfg : s.forgetAll.cfg = s.cfg := rfl
@[simp] theorem State.forgetAll_periphReq : s.forgetAll.periphReq = s.periphReq := rfl
@[simp] theorem State.forgetAll_env : s.forgetAll.env = s.env := rfl
@[simp] theorem State.forgetAll_intWait : s.forgetAll.intWait = s.intWait := rfl
@[simp] theorem State.forgetAll_statusPicks : s.forgetAll.statusPicks = s.statusPicks := rfl
@[simp] theorem State.forgetAll_ram : s.forgetAll.ram = [] := rfl
@[simp] theorem State.forgetAll_powerOns : s.forgetAll.powerOns = s.powerOns + 1 := rfl
@[simp] theorem State.forgetAll_unwrittenShadows : s.forgetAll.unwrittenShadows = allShadows := rfl

-- setShadow, writeShadow: only the shadow registers move
@[simp] theorem writeShadow_w (v : Byte) (r : ShadowReg) : (writeShadow s v r).w = s.w := by cases r <;> rfl
@[simp] theorem writeShadow_pc (v : Byte) (r : ShadowReg) : (writeShadow s v r).pc = s.pc := by cases r <;> rfl
@[simp] theorem writeShadow_pclath (v : Byte) (r : ShadowReg) : (writeShadow s v r).pclath = s.pclath := by cases r <;> rfl
@[simp] theorem writeShadow_bsr (v : Byte) (r : ShadowReg) : (writeShadow s v r).bsr = s.bsr := by cases r <;> rfl
@[simp] theorem writeShadow_fsr0 (v : Byte) (r : ShadowReg) : (writeShadow s v r).fsr0 = s.fsr0 := by cases r <;> rfl
@[simp] theorem writeShadow_fsr1 (v : Byte) (r : ShadowReg) : (writeShadow s v r).fsr1 = s.fsr1 := by cases r <;> rfl
@[simp] theorem writeShadow_c (v : Byte) (r : ShadowReg) : (writeShadow s v r).c = s.c := by cases r <;> rfl
@[simp] theorem writeShadow_dc (v : Byte) (r : ShadowReg) : (writeShadow s v r).dc = s.dc := by cases r <;> rfl
@[simp] theorem writeShadow_z (v : Byte) (r : ShadowReg) : (writeShadow s v r).z = s.z := by cases r <;> rfl
@[simp] theorem writeShadow_nTO (v : Byte) (r : ShadowReg) : (writeShadow s v r).nTO = s.nTO := by cases r <;> rfl
@[simp] theorem writeShadow_nPD (v : Byte) (r : ShadowReg) : (writeShadow s v r).nPD = s.nPD := by cases r <;> rfl
@[simp] theorem writeShadow_gie (v : Byte) (r : ShadowReg) : (writeShadow s v r).gie = s.gie := by cases r <;> rfl
@[simp] theorem writeShadow_intcon (v : Byte) (r : ShadowReg) : (writeShadow s v r).intcon = s.intcon := by cases r <;> rfl
@[simp] theorem writeShadow_pcon (v : Byte) (r : ShadowReg) : (writeShadow s v r).pcon = s.pcon := by cases r <;> rfl
@[simp] theorem writeShadow_optionReg (v : Byte) (r : ShadowReg) : (writeShadow s v r).optionReg = s.optionReg := by cases r <;> rfl
@[simp] theorem writeShadow_trisA (v : Byte) (r : ShadowReg) : (writeShadow s v r).trisA = s.trisA := by cases r <;> rfl
@[simp] theorem writeShadow_trisB (v : Byte) (r : ShadowReg) : (writeShadow s v r).trisB = s.trisB := by cases r <;> rfl
@[simp] theorem writeShadow_trisC (v : Byte) (r : ShadowReg) : (writeShadow s v r).trisC = s.trisC := by cases r <;> rfl
@[simp] theorem writeShadow_wdt (v : Byte) (r : ShadowReg) : (writeShadow s v r).wdt = s.wdt := by cases r <;> rfl
@[simp] theorem writeShadow_wdtPre (v : Byte) (r : ShadowReg) : (writeShadow s v r).wdtPre = s.wdtPre := by cases r <;> rfl
@[simp] theorem writeShadow_stack (v : Byte) (r : ShadowReg) : (writeShadow s v r).stack = s.stack := by cases r <;> rfl
@[simp] theorem writeShadow_slot15 (v : Byte) (r : ShadowReg) : (writeShadow s v r).slot15 = s.slot15 := by cases r <;> rfl
@[simp] theorem writeShadow_sleeping (v : Byte) (r : ShadowReg) : (writeShadow s v r).sleeping = s.sleeping := by cases r <;> rfl
@[simp] theorem writeShadow_ram (v : Byte) (r : ShadowReg) : (writeShadow s v r).ram = s.ram := by cases r <;> rfl
@[simp] theorem writeShadow_prog (v : Byte) (r : ShadowReg) : (writeShadow s v r).prog = s.prog := by cases r <;> rfl
@[simp] theorem writeShadow_cfg (v : Byte) (r : ShadowReg) : (writeShadow s v r).cfg = s.cfg := by cases r <;> rfl
@[simp] theorem writeShadow_periphReq (v : Byte) (r : ShadowReg) : (writeShadow s v r).periphReq = s.periphReq := by cases r <;> rfl
@[simp] theorem writeShadow_env (v : Byte) (r : ShadowReg) : (writeShadow s v r).env = s.env := by cases r <;> rfl
@[simp] theorem writeShadow_powerOns (v : Byte) (r : ShadowReg) : (writeShadow s v r).powerOns = s.powerOns := by cases r <;> rfl
@[simp] theorem writeShadow_intWait (v : Byte) (r : ShadowReg) : (writeShadow s v r).intWait = s.intWait := by cases r <;> rfl
@[simp] theorem writeShadow_statusPicks (v : Byte) (r : ShadowReg) : (writeShadow s v r).statusPicks = s.statusPicks := by cases r <;> rfl

/-- Setting no flag changes nothing. -/
@[simp] theorem State.setFlags_nothing : s.setFlags .nothing = s := rfl

end

end Sys2Proof.Machine
end

