-- ==== Sys2Proof/Laws/Ops.lean ====
section
/-! SUPPORT. What the named operations can do: the stack, interrupt entry and return, the device reset. -/

namespace Sys2Proof.Machine

/-- A push that goes on had room, and adds one entry. -/
theorem push_ok {v : ProgAddr} {s t : State} (h : push v s = .ok t) :
    s.stack.length < s.cfg.stackDepth ∧
      t = { s with stack := v :: s.stack, slot15 := if s.stack.length = 15 then v else s.slot15 } := by
  unfold push at h
  split at h
  · rename_i hl
    exact ⟨hl, by injection h with h; exact h.symm⟩
  · split at h <;> cases h

/-- A push with room goes on. -/
theorem push_of_room (v : ProgAddr) {s : State} (h : s.stack.length < s.cfg.stackDepth) :
    push v s = .ok { s with stack := v :: s.stack, slot15 := if s.stack.length = 15 then v else s.slot15 } := by
  simp [push, h]

/-- A push that ends the instruction met a full stack: a reset or the refusal. -/
theorem push_error {v : ProgAddr} {s : State} {r : Result} (h : push v s = .error r) :
    s.cfg.stackDepth ≤ s.stack.length ∧
      ((s.cfg.stvren = true ∧ r = .next (deviceReset .stackOverflow s)) ∨
        (s.cfg.stvren = false ∧ r = .refused .stackOverflowUnguarded)) := by
  unfold push at h
  split at h
  · cases h
  · rename_i hl
    refine ⟨by omega, ?_⟩
    split at h <;> rename_i hs <;> injection h with h
    · exact Or.inl ⟨hs, h.symm⟩
    · exact Or.inr ⟨by simpa using hs, h.symm⟩

/-- A pop that goes on takes the newest entry. -/
theorem pop_ok {v : ProgAddr} {s t : State} (h : pop s = .ok (v, t)) :
    ∃ rest, s.stack = v :: rest ∧ t = { s with stack := rest } := by
  unfold pop at h
  split at h
  · rename_i v' rest hs
    injection h with h
    injection h with h1 h2
    subst h1
    exact ⟨rest, hs, h2.symm⟩
  · split at h <;> cases h

/-- A pop from a stack with entries goes on. -/
theorem pop_of_cons {v : ProgAddr} {rest : List ProgAddr} {s : State} (h : s.stack = v :: rest) :
    pop s = .ok (v, { s with stack := rest }) := by
  unfold pop
  split
  · rename_i v' rest' h'
    rw [h] at h'
    injection h' with h1 h2
    rw [h1, h2]
  · rename_i h'
    rw [h] at h'
    cases h'

/-- A pop that ends the instruction met an empty stack: a reset or the refusal. -/
theorem pop_error {s : State} {r : Result} (h : pop s = .error r) :
    s.stack = [] ∧
      ((s.cfg.stvren = true ∧ r = .next (deviceReset .stackUnderflow s)) ∨
        (s.cfg.stvren = false ∧ r = .refused .stackUnderflowUnguarded)) := by
  unfold pop at h
  split at h
  · cases h
  · rename_i hl
    refine ⟨hl, ?_⟩
    split at h <;> rename_i hs <;> injection h with h
    · exact Or.inl ⟨hs, h.symm⟩
    · exact Or.inr ⟨by simpa using hs, h.symm⟩

/-- Interrupt entry that goes on: what R235 writes. -/
theorem interruptEntry_ok {s t : State} (h : interruptEntry s = .ok t) :
    ∃ u, push s.pc s = .ok u ∧ t = { u.saveContext with gie := false, pc := u.cfg.intVector } := by
  unfold interruptEntry at h
  split at h
  · rename_i u hu
    injection h with h
    exact ⟨u, hu, h.symm⟩
  · cases h

/-- Interrupt entry that ends the step: the overflow of its push. -/
theorem interruptEntry_error {s : State} {r : Result} (h : interruptEntry s = .error r) : push s.pc s = .error r := by
  unfold interruptEntry at h
  split at h
  · cases h
  · rename_i r' hr
    injection h with h
    rw [hr, h]

/-- RETFIE's next state: a pop with GIE set and the context restored, or the underflow reset. -/
theorem interruptReturn_next {s t : State} (h : interruptReturn s = .next t) :
    (∃ v u, pop s = .ok (v, u) ∧ s.restoreRefused = false ∧
      t = ({ u with pc := v, gie := true } : State).restoreContext) ∨
      pop s = .error (.next t) := by
  unfold interruptReturn at h
  split at h
  · rename_i v u hp
    split at h
    · cases h
    · rename_i hr
      injection h with h
      exact Or.inl ⟨v, u, hp, by simpa using hr, h.symm⟩
  · rename_i r hr
    exact Or.inr (hr.trans (congrArg _ h))

/-- RETFIE's refusals: that of its pop (R44), and that of R190. -/
theorem interruptReturn_refused {s : State} {e : Refusal} (h : interruptReturn s = .refused e) :
    (s.restoreRefused = true ∧ e = .unknownShadowRegisters) ∨ pop s = .error (.refused e) := by
  unfold interruptReturn at h
  split at h
  · split at h
    · rename_i hr
      injection h with h
      exact Or.inl ⟨hr, h.symm⟩
    · cases h
  · rename_i r hr
    exact Or.inr (hr.trans (congrArg _ h))

/-- Where the configuration lets RETFIE restore whatever the fields hold, R190 does not refuse it (assumption log 5). -/
theorem restoreRefused_of_useValue {s : State} (h : s.cfg.unknownShadows = .useValue) : s.restoreRefused = false := by
  simp [State.restoreRefused, h]

section
variable (k : ResetKind) (s : State)

@[simp] theorem State.causeEntries_forgetAll : s.forgetAll.causeEntries k = s.causeEntries k := by cases k <;> rfl

@[simp] theorem deviceReset_pc : (deviceReset k s).pc = s.cfg.resetVector := by unfold deviceReset; split <;> rfl
@[simp] theorem deviceReset_intWait : (deviceReset k s).intWait = 0 := by unfold deviceReset; split <;> rfl
@[simp] theorem deviceReset_prog : (deviceReset k s).prog = s.prog := by unfold deviceReset; split <;> rfl
@[simp] theorem deviceReset_cfg : (deviceReset k s).cfg = s.cfg := by unfold deviceReset; split <;> rfl
@[simp] theorem deviceReset_env : (deviceReset k s).env = s.env := by unfold deviceReset; split <;> rfl
@[simp] theorem deviceReset_periphReq : (deviceReset k s).periphReq = s.periphReq := by unfold deviceReset; split <;> rfl

/-- RAM after a reset: kept, or without a value after a power-on (R51). -/
theorem deviceReset_ram : (deviceReset k s).ram = if k = .powerOn then [] else s.ram := by
  unfold deviceReset
  split <;> simp

/-- The stack after a reset is the table's, of the column of its kind (R51). -/
theorem deviceReset_stack :
    (deviceReset k s).stack = if k = .powerOn then s.cfg.resetValues.powerOn.stack else s.cfg.resetValues.others.stack := by
  unfold deviceReset
  split <;> simp

/-- A reset that is no power-on, by the spec's table: what it keeps and what it writes (R51, R261). -/
theorem deviceReset_others (hk : k ≠ .powerOn) (h : s.cfg.resetValues = resetValuesDefault) :
    deviceReset k s =
      { s with
        stack := [], wdt := 0, wdtPre := 0, sleeping := false, gie := false, intcon := 0, bsr := 0, pclath := 0
        optionReg := 0xFF, trisA := 0xFF, trisB := 0xFF, trisC := 0xFF, pc := s.cfg.resetVector, intWait := 0
        nTO := (s.causeEntries k).nTO.getD s.nTO, nPD := (s.causeEntries k).nPD.getD s.nPD
        pcon := CauseEntries.pcon (s.causeEntries k) s.pcon } := by
  have hf : (s.unwrittenShadows.filter fun r => !givesShadow otherResetsColumn r) = s.unwrittenShadows :=
    List.filter_eq_self.2 fun r _ => by cases r <;> rfl
  unfold deviceReset
  rw [if_neg hk, h]
  simp only [resetValuesDefault, State.resetTo, hf]
  rfl

end

/-- The state a run starts from is what a power-on reset by the table leaves, with the values that the model names where the table has
none (assumption log 5 to 7) and the power-ons counted from there (assumption log 10). -/
theorem reset_follows_the_table (s : State) (hc : s.cfg = params1508) (hp : s.prog = []) (he : s.env = [])
    (hr : s.periphReq = false) (hs : s.statusPicks = 0) :
    State.reset =
      { deviceReset .powerOn s with
        powerOns := 0, slot15 := 0, wShad := 0, statusShad := 0, bsrShad := 0, pclathShad := 0, fsr0Shad := 0, fsr1Shad := 0
        pcon := { (deviceReset .powerOn s).pcon with nBOR := false } } := by
  unfold deviceReset
  simp only [if_pos, State.resetTo, State.forgetAll, State.causeEntries, hc, hp, he, hr, hs]
  rfl

end Sys2Proof.Machine
end

