-- ==== Sys2Proof/Laws/Operands.lean ====
section
/-! SUPPORT. What the operand operations can do: where an address points, what a write changes, and the inversion of each shape the
instructions share. -/

namespace Sys2Proof.Machine

/-- The data address of a file operand as a number (R61): 128 times the bank plus the offset. -/
theorem fileAddr_toNat (s : State) (f : FileAddr) : (s.fileAddr f).toNat = s.bsr.toNat * 128 + f.toNat := by
  have hf := f.isLt
  unfold State.fileAddr
  rw [BitVec.toNat_append, ← Nat.shiftLeft_add_eq_or_of_lt (by omega), Nat.shiftLeft_eq]

/-- The top bit of a pointer is the program memory region (R75). -/
theorem ptr_msb (p : Ptr) : p.getLsbD 15 = decide (0x8000 ≤ p.toNat) := by
  have hp := p.isLt
  rw [BitVec.getLsbD, Nat.testBit_eq_decide_div_mod_eq]
  congr 1
  simp
  omega

/-- FSR space from 0x8000: program memory (R77). -/
theorem indLoc_program (c : Params) {p : Ptr} (h : 0x8000 ≤ p.toNat) : indLoc c p = .ok (.programByte (p.setWidth 15)) := by
  have e : p.extractLsb' 0 15 = p.setWidth 15 := by
    apply BitVec.eq_of_toNat_eq
    simp
  unfold indLoc
  rw [if_pos (by rw [ptr_msb]; exact decide_eq_true h), e]

/-- FSR space up to 0x0FFF: the data memory address of the same number (R75). -/
theorem indLoc_traditional (c : Params) {p : Ptr} (h : p.toNat ≤ 0x0FFF) : indLoc c p = dataLoc c (BitVec.ofNat 12 p.toNat) := by
  have hm : ¬p.getLsbD 15 = true := by rw [ptr_msb, decide_eq_true_eq]; omega
  have e : p.extractLsb' 0 12 = BitVec.ofNat 12 p.toNat := by
    apply BitVec.eq_of_toNat_eq
    simp
  unfold indLoc
  rw [if_neg hm, if_pos h, e]

/-- FSR space from 0x2000 to 0x29AF: linear data memory (R76). -/
theorem indLoc_linear (c : Params) {p : Ptr} (h : 0x2000 ≤ p.toNat) (h' : p.toNat ≤ 0x29AF) :
    indLoc c p = dataLoc c (linearAddr p) := by
  have hm : ¬p.getLsbD 15 = true := by rw [ptr_msb, decide_eq_true_eq]; omega
  unfold indLoc
  rw [if_neg hm, if_neg (by omega), if_pos ⟨h, h'⟩]

/-- The reserved ranges of FSR space (R73, R74). -/
theorem indLoc_reserved (c : Params) {p : Ptr}
    (h : (0x1000 ≤ p.toNat ∧ p.toNat ≤ 0x1FFF) ∨ (0x29B0 ≤ p.toNat ∧ p.toNat ≤ 0x7FFF)) :
    indLoc c p = .error (.reservedFsrAddress p) := by
  have hm : ¬p.getLsbD 15 = true := by rw [ptr_msb, decide_eq_true_eq]; omega
  unfold indLoc
  rw [if_neg hm, if_neg (by omega), if_neg (by omega)]

section
variable {c : Params} {a : DataAddr}

/-- A bank that the configuration has not got (R6 `NBANKS`). -/
theorem dataLoc_outside (h : c.nbanks ≤ a.toNat / 128) : dataLoc c a = .error (.bankOutsideMemory a) := by
  simp only [dataLoc]
  rw [if_pos h]

/-- The core registers stand at the same twelve offsets of every bank (R50, R62). -/
theorem dataLoc_core {r : CoreReg} (hb : a.toNat / 128 < c.nbanks) (hr : coreAt c (a.toNat % 128) = some r) :
    dataLoc c a = .ok (.core r) := by
  have h : a.toNat % 128 < 12 := by
    by_contra h
    simp [coreAt, h] at hr
  simp only [dataLoc]
  rw [if_neg (by omega), if_neg (by omega), hr]

/-- Common RAM stands at the last sixteen offsets of every bank (R62, R69). -/
theorem dataLoc_common (hb : a.toNat / 128 < c.nbanks) (h : 0x70 ≤ a.toNat % 128) : dataLoc c a = .ok (.ram (a.toNat % 128)) := by
  simp only [dataLoc]
  rw [if_neg (by omega), if_pos h]

/-- Between the core registers and common RAM: special function registers, banked RAM, unimplemented locations (R62, R66, R67, R68). -/
theorem dataLoc_banked (hb : a.toNat / 128 < c.nbanks) (h : 12 ≤ a.toNat % 128) (h' : a.toNat % 128 < 0x70) :
    dataLoc c a =
      if inSfrWindow (a.toNat / 128) (a.toNat % 128) then sfrLoc c a
      else if hasGpr c a.toNat then .ok (.ram a.toNat) else .ok .unimplemented := by
  have hn : coreAt c (a.toNat % 128) = none := by
    unfold coreAt
    rw [if_neg (by omega)]
  simp only [dataLoc]
  rw [if_neg (by omega), if_neg (by omega), hn]

end

/-- With the spec's map there is every bank that 12 address bits can name (R61). -/
theorem bank_lt_nbanks {c : Params} (h : hasSpecMap c) (a : DataAddr) : a.toNat / 128 < c.nbanks := by
  have ha := a.isLt
  rw [h.2]
  omega

/-- With the spec's map the core register at an offset is R50's. -/
theorem coreAt_spec {c : Params} (h : hasSpecMap c) (off : Nat) : coreAt c off = coreRegMapDefault[off]? := by
  unfold coreAt
  rw [h.1]
  split
  · rfl
  · rename_i hn
    rw [List.getElem?_eq_none]
    simpa [coreRegMapDefault] using hn

/-- A file operand at whose offset no INDFn stands selects its data address (R63, R64). -/
theorem fileLoc_direct {s : State} {f : FileAddr} (h : s.indfPointer f = none) : fileLoc s f = dataLoc s.cfg (s.fileAddr f) := by
  unfold fileLoc
  rw [h]

/-- A file operand at whose offset an INDFn stands goes through the FSR of the same n (R63, R64). -/
theorem fileLoc_indf {s : State} {f : FileAddr} {p : Ptr} (h : s.indfPointer f = some p) : fileLoc s f = indLoc s.cfg p := by
  unfold fileLoc
  rw [h]

/-- With the spec's map INDF0 and INDF1 are the file operands 0x00 and 0x01, and no other (R63). -/
theorem indfPointer_spec {s : State} (h : hasSpecMap s.cfg) (f : FileAddr) :
    s.indfPointer f = if f = 0x00 then some s.fsr0 else if f = 0x01 then some s.fsr1 else none := by
  unfold State.indfPointer
  rw [coreAt_spec h]
  by_cases h0 : f = 0x00
  · subst h0
    rfl
  · by_cases h1 : f = 0x01
    · subst h1
      rfl
    · rw [if_neg h0, if_neg h1]
      have n0 : f.toNat ≠ 0 := fun e => h0 (BitVec.eq_of_toNat_eq e)
      have n1 : f.toNat ≠ 1 := fun e => h1 (BitVec.eq_of_toNat_eq e)
      unfold coreRegMapDefault
      match hf : f.toNat with
      | 0 => exact absurd hf n0
      | 1 => exact absurd hf n1
      | 2 | 3 | 4 | 5 | 6 | 7 | 8 | 9 | 10 | 11 => rfl
      | n + 12 => simp

/-- The offset of a file operand's data address is the operand (R61). -/
theorem fileAddr_mod (s : State) (f : FileAddr) : (s.fileAddr f).toNat % 128 = f.toNat := by
  have hf := f.isLt
  rw [fileAddr_toNat]
  omega

/-- A file operand selects a core register whatever BSR holds (R50). -/
theorem fileLoc_core {s : State} {f : FileAddr} (h : hasSpecMap s.cfg) (h0 : f ≠ 0x00) (h1 : f ≠ 0x01) {r : CoreReg}
    (hr : coreRegMapDefault[f.toNat]? = some r) : fileLoc s f = .ok (.core r) := by
  rw [fileLoc_direct (by rw [indfPointer_spec h, if_neg h0, if_neg h1])]
  exact dataLoc_core (bank_lt_nbanks h _) (by rw [fileAddr_mod, coreAt_spec h, hr])

/-- Reading through a pointer is reading the data address it selects (R73). -/
theorem indRead_eq_memRead {s : State} {p : Ptr} {a : DataAddr} (h : indLoc s.cfg p = dataLoc s.cfg a) : indRead s p = memRead s a := by
  unfold indRead memRead
  rw [h]

/-- Writing through a pointer is writing the data address it selects (R74). -/
theorem indWrite_eq_memWrite {s : State} {p : Ptr} {a : DataAddr} {k : FlagKind} {v : Byte}
    (h : indLoc s.cfg p = dataLoc s.cfg a) : indWrite s p k v = memWrite s a k v := by
  unfold indWrite memWrite
  rw [h]

section
variable {s t : State} {l : Loc} {k : FlagKind} {v : Byte}

/-- RAM after a write (R65): only the byte of a RAM location changes. -/
theorem writeLoc_ram (h : writeLoc s l k v = .ok t) :
    t.ram = match l with
      | .ram key => s.ram.write key v
      | _ => s.ram := by
  cases l with
  | core r => simp only [writeLoc] at h; cases r <;> cases k <;> simp only [writeCore, Except.ok.injEq] at h <;> subst h <;> simp
  | shadow r => simp only [writeLoc, Except.ok.injEq] at h; subst h; simp
  | _ => simp only [writeLoc, Except.ok.injEq, reduceCtorEq] at h <;> subst h <;> simp

/-- What no write to a location changes: flags nTO and nPD, the stack, the watchdog, sleep, the parameters, the model's fields. -/
theorem writeLoc_frame (h : writeLoc s l k v = .ok t) :
    t.nTO = s.nTO ∧ t.nPD = s.nPD ∧ t.stack = s.stack ∧ t.slot15 = s.slot15 ∧ t.wdt = s.wdt ∧ t.wdtPre = s.wdtPre ∧
      t.sleeping = s.sleeping ∧ t.prog = s.prog ∧ t.cfg = s.cfg ∧ t.periphReq = s.periphReq ∧ t.env = s.env ∧
      t.powerOns = s.powerOns ∧ t.intWait = s.intWait := by
  cases l with
  | core r => simp only [writeLoc] at h; cases r <;> cases k <;> simp only [writeCore, Except.ok.injEq] at h <;> subst h <;> simp
  | shadow r => simp only [writeLoc, Except.ok.injEq] at h; subst h; simp
  | _ => simp only [writeLoc, Except.ok.injEq, reduceCtorEq] at h <;> subst h <;> simp

/-- A write changes a register only at the register's own location (R50, R66). -/
theorem writeLoc_registers (h : writeLoc s l k v = .ok t) :
    (l ≠ .core .wreg → t.w = s.w) ∧ (l ≠ .core .pcl → t.pc = s.pc) ∧ (l ≠ .core .pclath → t.pclath = s.pclath) ∧
      (l ≠ .core .bsr → t.bsr = s.bsr) ∧
      (l ≠ .core .fsr0l → l ≠ .core .fsr0h → t.fsr0 = s.fsr0) ∧
      (l ≠ .core .fsr1l → l ≠ .core .fsr1h → t.fsr1 = s.fsr1) ∧
      (l ≠ .core .status → t.c = s.c ∧ t.dc = s.dc ∧ t.z = s.z) ∧
      (l ≠ .core .intcon → t.gie = s.gie ∧ t.intcon = s.intcon) ∧
      (l ≠ .pcon → t.pcon = s.pcon) ∧ (l ≠ .optionReg → t.optionReg = s.optionReg) ∧
      (l ≠ .trisA → t.trisA = s.trisA) ∧ (l ≠ .trisB → t.trisB = s.trisB) ∧ (l ≠ .trisC → t.trisC = s.trisC) ∧
      ((∀ r, l ≠ .shadow r) → t.wShad = s.wShad ∧ t.statusShad = s.statusShad ∧ t.bsrShad = s.bsrShad ∧
        t.pclathShad = s.pclathShad ∧ t.fsr0Shad = s.fsr0Shad ∧ t.fsr1Shad = s.fsr1Shad ∧
        t.unwrittenShadows = s.unwrittenShadows) := by
  cases l with
  | core r => simp only [writeLoc] at h; cases r <;> cases k <;> simp only [writeCore, Except.ok.injEq] at h <;> subst h <;> simp
  | shadow r => simp only [writeLoc, Except.ok.injEq] at h; subst h; simp
  | _ => simp only [writeLoc, Except.ok.injEq, reduceCtorEq] at h <;> subst h <;> simp

/-- When a write is refused: the stack registers (R43). -/
theorem writeLoc_error {e : Refusal} (h : writeLoc s l k v = .error e) :
    (l = .stkptr ∨ l = .tosl ∨ l = .tosh) ∧ e = .stackRegisterWrite := by
  cases l with
  | core r =>
    simp only [writeLoc] at h
    cases r <;> cases k <;> simp only [writeCore, reduceCtorEq] at h
  | _ => simp only [writeLoc, Except.error.injEq, reduceCtorEq] at h <;> subst h <;> simp

/-- When a read is refused: program memory outside PM_WORDS (R77). -/
theorem readLoc_error {e : Refusal} (h : readLoc s l = .error e) :
    ∃ a, l = .programByte a ∧ s.cfg.pmWords ≤ a.toNat ∧ e = .readOutsideProgram a := by
  cases l <;> simp only [readLoc, reduceCtorEq] at h
  case programByte a =>
    split at h
    · cases h
    · rename_i ha
      exact ⟨a, rfl, by omega, by injection h with h; exact h.symm⟩

end

/-- A write through a file operand that goes on was a write to the location the operand selects. -/
theorem fwrite_ok {s n t : State} {f : FileAddr} {k : FlagKind} {v : Byte} (h : fwrite s n f k v = .ok t) :
    ∃ l, fileLoc s f = .ok l ∧ writeLoc n l k v = .ok t := by
  unfold fwrite at h
  split at h
  · rename_i l hl
    exact ⟨l, hl, h⟩
  · cases h

/-- A write through an FSR value that goes on was a write to the location the value selects. -/
theorem indWrite_ok {n t : State} {p : Ptr} {k : FlagKind} {v : Byte} (h : indWrite n p k v = .ok t) :
    ∃ l, indLoc n.cfg p = .ok l ∧ writeLoc n l k v = .ok t := by
  unfold indWrite at h
  split at h
  · rename_i l hl
    exact ⟨l, hl, h⟩
  · cases h

/-- The destination of an `f, d` instruction: W, or the file register. -/
theorem writeBack_next {s n t : State} {f : FileAddr} {d : Dest} {r : AluResult} (h : writeBack s n f d r = .next t) :
    (d = .w ∧ t = (n.setW r.value).setFlags r.flags) ∨
      (d = .f ∧ ∃ u, fwrite s n f r.flags.kind r.value = .ok u ∧ t = u.setFlags r.flags) := by
  unfold writeBack at h
  cases d with
  | w =>
    injection h with h
    exact Or.inl ⟨rfl, h.symm⟩
  | f =>
    simp only at h
    split at h
    · rename_i u hu
      injection h with h
      exact Or.inr ⟨rfl, u, hu, h.symm⟩
    · cases h

/-- The next state of an `f, d` instruction: the operand was read and the result written back. -/
theorem byteOp_next {s t : State} {f : FileAddr} {d : Dest} {alu : Byte → AluResult} (h : byteOp f d alu s = .next t) :
    ∃ v, fread s f = .ok v ∧ writeBack s s.advance f d (alu v) = .next t := by
  unfold byteOp at h
  split at h
  · cases h
  · rename_i v hv
    exact ⟨v, hv, h⟩

/-- The next state of DECFSZ and INCFSZ: the result did not go to PCL, and pc has moved by one or by two. -/
theorem skipOp_next {s t : State} {f : FileAddr} {d : Dest} {g : Byte → Byte} (h : skipOp f d g s = .next t) :
    ∃ v, fread s f = .ok v ∧ ¬(d = .f ∧ selectsPcl s f = true) ∧
      writeBack s (if g v = 0 then s.skipNext else s.advance) f d (plainResult (g v)) = .next t := by
  unfold skipOp at h
  split at h
  · cases h
  · rename_i v hv
    split at h
    · cases h
    · rename_i hp
      exact ⟨v, hv, by simpa using hp, h⟩

/-- The next state of BTFSC and BTFSS: only pc moves. -/
theorem bitSkipOp_next {s t : State} {f : FileAddr} {b : BitVec 3} {wanted : Bool} (h : bitSkipOp f b wanted s = .next t) :
    ∃ v, fread s f = .ok v ∧ t = if bitOf v b = wanted then s.skipNext else s.advance := by
  unfold bitSkipOp at h
  split at h
  · cases h
  · rename_i v hv
    injection h with h
    exact ⟨v, hv, h.symm⟩

/-- The next state of a MOVIW: the byte read is in W and decides Z. -/
theorem loadIndirect_next {s n t : State} {ea : Ptr} (h : loadIndirect s n ea = .next t) :
    ∃ v, indRead s ea = .ok v ∧ t = (n.setW v).setFlags (zResult v).flags := by
  unfold loadIndirect at h
  split at h
  · cases h
  · rename_i v hv
    injection h with h
    exact ⟨v, hv, h.symm⟩

/-- No shape of instruction ends in a fault: the machine has none (R231). -/
theorem no_fault (r : Fault) : False := by cases r

end Sys2Proof.Machine
end

