-- ==== Sys2Proof/Laws/Exec.lean ====
section
/-! SUPPORT. What one instruction can do, said once: every next state of `exec` is of one of four forms (`exec_next`). Frames and
invariants are short case analyses over these forms. -/

namespace Sys2Proof.Machine

/-- The flags written are among those the instruction affects (R36). -/
def FlagWrite.Within (fl : FlagWrite) (a : Affects) : Prop :=
  (a.c = false → fl.c = none) ∧ (a.dc = false → fl.dc = none) ∧ (a.z = false → fl.z = none)

/-- The instruction wrote one location (`storeTarget`), and then its flags or, for a MOVWI with modifier, its pointer. -/
def StoresTo (i : Instr) (s t : State) : Prop :=
  ∃ l k v n u, storeTarget i s = some l ∧ (n = s.advance ∨ n = s.skipNext) ∧ writeLoc n l k v = .ok u ∧
    ((∃ fl : FlagWrite, fl.Within (affects i) ∧ t = u.setFlags fl) ∨
      ∃ q mm, i = .movwiMode q mm ∧ t = u.setFsr q (modeStepped mm (s.fsr q)))

/-- The instruction wrote W and its flags, and no location. -/
def WritesToW (i : Instr) (s t : State) : Prop :=
  storeTarget i s = none ∧ writesW i = true ∧
    ∃ n v fl, (n = s.advance ∨ n = s.skipNext) ∧ FlagWrite.Within fl (affects i) ∧ t = (n.setW v).setFlags fl

/-- The instruction reset the device; a RETLW wrote W first. -/
def Resets (i : Instr) (s t : State) : Prop :=
  storeTarget i s = none ∧ RaisesReset i s ∧
    ∃ k s', (k = .resetInstruction ∨ k = .stackOverflow ∨ k = .stackUnderflow) ∧ (s' = s ∨ ∃ b, i = .retlw b ∧ s' = s.setW b) ∧ t = deviceReset k s'

/-- Every other effect: the register an instruction names, pc, the return stack. -/
def ActsOnRegisters (i : Instr) (s t : State) : Prop :=
  storeTarget i s = none ∧
    ((∃ k, i = .movlb k ∧ t = { s.advance with bsr := k }) ∨
      (∃ k, i = .movlp k ∧ t = { s.advance with pclath := k }) ∨
      (∃ p, ¬UsesStack i ∧ t = s.setPc p) ∨
      (UsesStack i ∧ i ≠ .retfie ∧
        ∃ st sl p w, (w = s.w ∨ writesW i = true) ∧ t = { s with stack := st, slot15 := sl, pc := p, w := w }) ∨
      (i = .retfie ∧ ∃ st p, t = ({ s with stack := st, pc := p, gie := true } : State).restoreContext) ∨
      (i = .clrwdt ∧ t = { s.advance with wdt := 0, wdtPre := 0, nTO := true, nPD := true }) ∨
      (i = .option ∧ t = { s.advance with optionReg := s.w }) ∨
      (i = .tris5 ∧ t = { s.advance with trisA := s.w }) ∨
      (i = .tris6 ∧ t = { s.advance with trisB := s.w }) ∨
      (i = .tris7 ∧ t = { s.advance with trisC := s.w }) ∨
      (i = .sleep ∧ t = { s.advance with wdt := 0, wdtPre := 0, nTO := true, nPD := false, sleeping := true }) ∨
      (∃ n k, i = .addfsr n k ∧ t = s.advance.setFsr n (indexedAddress (s.fsr n) k)) ∨
      ∃ n mm p v fl, i = .moviwMode n mm ∧ FlagWrite.Within fl (affects i) ∧
        t = ((s.advance.setFsr n p).setW v).setFlags fl)

/-- An `f, d` write-back stores to its location or writes W. -/
theorem writeBack_form {i : Instr} {s n t : State} {f d r} (hn : n = s.advance ∨ n = s.skipNext) (hst : storeTarget i s = fileWriteLoc s f d) (hw : d = .w → writesW i = true)
   (hfl : r.flags.Within (affects i)) (h : writeBack s n f d r = .next t) : StoresTo i s t ∨ WritesToW i s t := by
  rcases writeBack_next h with ⟨rfl, rfl⟩ | ⟨rfl, u, hu, rfl⟩
  · right; exact ⟨by rw [hst]; rfl, hw rfl, n, _, _, hn, hfl, rfl⟩
  · left; obtain ⟨l, hl, hw⟩ := fwrite_ok hu
    exact ⟨l, _, _, n, u, by simp [hst, fileWriteLoc, hl, Except.toOption], hn, hw, .inl ⟨_, hfl, rfl⟩⟩
/-- So does every `f, d` instruction. -/
theorem byteOp_form {i : Instr} {s t : State} {f d alu} (hst : storeTarget i s = fileWriteLoc s f d) (hw : d = .w → writesW i = true)
   (hfl : ∀ v, (alu v).flags.Within (affects i)) (h : byteOp f d alu s = .next t) : StoresTo i s t ∨ WritesToW i s t := by
  obtain ⟨v, hv, h⟩ := byteOp_next h
  exact writeBack_form (.inl rfl) hst hw (hfl v) h
/-- So do DECFSZ and INCFSZ. -/
theorem skipOp_form {i : Instr} {s t : State} {f d g} (hst : storeTarget i s = fileWriteLoc s f d) (hw : d = .w → writesW i = true)
    (h : skipOp f d g s = .next t) : StoresTo i s t ∨ WritesToW i s t := by
  obtain ⟨v, hv, _, h⟩ := skipOp_next h
  refine writeBack_form ?_ hst hw (by simp [FlagWrite.Within, plainResult, FlagWrite.nothing]) h
  split <;> simp
/-- EVERY NEXT STATE OF AN INSTRUCTION is of one of four forms. -/
theorem exec_next {i : Instr} {s t : State} (h : exec i s = .next t) : (StoresTo i s t ∨ WritesToW i s t) ∨ Resets i s t ∨ ActsOnRegisters i s t := by
  have hcall : ∀ {i x}, ((∃ k, i = .call k) ∨ i = .callw) → storeTarget i s = none → callTo x s = .next t → Resets i s t ∨ ActsOnRegisters i s t := by
    intro i x hi hs h
    unfold callTo at h; split at h
    · rename_i u hu; obtain ⟨_, rfl⟩ := push_ok hu; cases h
      right; refine ⟨hs, .inr (.inr (.inr (.inl ⟨?_, ?_, _, _, _, _, .inl rfl, rfl⟩)))⟩
      · rcases hi with h | h <;> simp [UsesStack, h]
      · rcases hi with ⟨k, h⟩ | h <;> simp [h]
    · rename_i r hu; obtain ⟨hl, h1 | h1⟩ := push_error hu <;> rw [h1.2] at h <;> cases h
      left; exact ⟨hs, .inr (.inl ⟨hi, hl⟩), _, _, by simp, .inl rfl, rfl⟩
  have hret : ∀ {i s'}, (i = .ret ∧ s' = s ∨ ∃ k, i = .retlw k ∧ s' = s.setW k) → storeTarget i s = none → returnFrom s' = .next t → Resets i s t ∨ ActsOnRegisters i s t := by
    intro i s' hi hs h
    unfold returnFrom at h; split at h
    · rename_i v u hu; obtain ⟨rest, _, rfl⟩ := pop_ok hu; cases h
      right; rcases hi with ⟨rfl, rfl⟩ | ⟨k, rfl, rfl⟩
      · exact ⟨hs, .inr (.inr (.inr (.inl ⟨by simp [UsesStack], by simp, rest, _, v, _, .inl rfl, rfl⟩)))⟩
      · exact ⟨hs, .inr (.inr (.inr (.inl ⟨by simp [UsesStack], by simp, rest, s.slot15, v, k, .inr rfl, rfl⟩)))⟩
    · rename_i r hu; obtain ⟨hl, h1 | h1⟩ := pop_error hu <;> rw [h1.2] at h <;> cases h
      left; refine ⟨hs, .inr (.inr ⟨?_, ?_⟩), _, s', by simp, ?_, rfl⟩
      · rcases hi with h | ⟨k, h⟩ <;> simp [h]
      · rcases hi with h | ⟨k, h⟩ <;> rw [h.2] at hl <;> exact hl
      · rcases hi with h | ⟨k, h⟩ <;> simp [h]
  cases i <;> simp only [exec] at h
  case clrf f =>
    have h : writeBack s s.advance f .f (zResult 0) = .next t := h
    exact .inl (writeBack_form (.inl rfl) rfl (by simp) (by simp [FlagWrite.Within, zResult, affects]) h)
  case movwf f =>
    have h : writeBack s s.advance f .f (plainResult s.w) = .next t := h
    exact .inl (writeBack_form (.inl rfl) rfl (by simp) (by simp [FlagWrite.Within, plainResult, FlagWrite.nothing]) h)
  case decfsz f d => exact .inl (skipOp_form rfl (by simp [writesW]) h)
  case incfsz f d => exact .inl (skipOp_form rfl (by simp [writesW]) h)
  case btfsc f b =>
    obtain ⟨v, _, rfl⟩ := bitSkipOp_next h
    right; right
    exact ⟨rfl, .inr (.inr (.inl ⟨if bitOf v b = false then s.pc + 2 else s.pc + 1, by simp [UsesStack], by split <;> rfl⟩))⟩
  case btfss f b =>
    obtain ⟨v, _, rfl⟩ := bitSkipOp_next h
    right; right
    exact ⟨rfl, .inr (.inr (.inl ⟨if bitOf v b = true then s.pc + 2 else s.pc + 1, by simp [UsesStack], by split <;> rfl⟩))⟩
  case call k => exact .inr (hcall (.inl ⟨k, rfl⟩) rfl h)
  case callw => exact .inr (hcall (.inr rfl) rfl h)
  case ret => exact .inr (hret (.inl ⟨rfl, rfl⟩) rfl h)
  case retlw k => exact .inr (hret (.inr ⟨k, rfl, rfl⟩) rfl h)
  case retfie =>
    rcases interruptReturn_next h with ⟨v, u, hu, _, rfl⟩ | h
    · obtain ⟨_, _, rfl⟩ := pop_ok hu
      right; right; exact ⟨rfl, .inr (.inr (.inr (.inr (.inl ⟨rfl, _, _, rfl⟩))))⟩
    · obtain ⟨hl, h1 | h1⟩ := pop_error h <;> have := h1.2 <;> cases this
      right; left; exact ⟨rfl, .inr (.inr ⟨by simp, hl⟩), _, s, by simp, .inl rfl, rfl⟩
  case reset => cases h; right; left; exact ⟨rfl, .inl rfl, _, s, by simp, .inl rfl, rfl⟩
  case movlb => cases h; right; right; simp [ActsOnRegisters, storeTarget]
  case movlp => cases h; right; right; simp [ActsOnRegisters, storeTarget]
  case bra => cases h; right; right; exact ⟨rfl, .inr (.inr (.inl ⟨_, by simp [UsesStack], rfl⟩))⟩
  case brw => cases h; right; right; exact ⟨rfl, .inr (.inr (.inl ⟨_, by simp [UsesStack], rfl⟩))⟩
  case goto => cases h; right; right; exact ⟨rfl, .inr (.inr (.inl ⟨_, by simp [UsesStack], rfl⟩))⟩
  case nop => cases h; right; right; exact ⟨rfl, .inr (.inr (.inl ⟨s.pc+1, by simp [UsesStack], rfl⟩))⟩
  case clrwdt => cases h; right; right; simp [ActsOnRegisters, storeTarget]
  case option => cases h; right; right; simp [ActsOnRegisters, storeTarget]
  case tris5 => cases h; right; right; simp [ActsOnRegisters, storeTarget]
  case tris6 => cases h; right; right; simp [ActsOnRegisters, storeTarget]
  case tris7 => cases h; right; right; simp [ActsOnRegisters, storeTarget]
  case sleep => unfold execSleep at h; split at h <;> cases h
                · right; right; exact ⟨rfl, .inr (.inr (.inl ⟨s.pc+1, by simp [UsesStack], rfl⟩))⟩
                · right; right; simp [ActsOnRegisters, storeTarget]
  case addfsr n k => cases h; right; right; exact ⟨rfl, by simp⟩
  case moviwMode n mm =>
    unfold execMoviwMode at h; split at h
    · cases h
    · obtain ⟨v, _, rfl⟩ := loadIndirect_next h
      right; right; refine ⟨rfl, ?_⟩
      iterate 12 right
      exact ⟨n, mm, _, _, _, rfl, by simp [FlagWrite.Within, zResult, affects], rfl⟩
  case moviwIndexed n mm =>
    obtain ⟨v, _, rfl⟩ := loadIndirect_next h
    left; right; exact ⟨rfl, rfl, _, _, _, .inl rfl, by simp [FlagWrite.Within, zResult, affects], rfl⟩
  case movwiMode n mm =>
    unfold execMovwiMode at h; split at h
    · cases h
    · split at h
      · cases h
      · rename_i u hu; cases h
        obtain ⟨l, hl, hw⟩ := indWrite_ok hu
        simp only [State.advance_cfg] at hl
        left; left; exact ⟨l, _, _, _, u, by simp [storeTarget, hl, Except.toOption], .inl rfl, hw, .inr ⟨n, mm, rfl, rfl⟩⟩
  case movwiIndexed n k =>
    unfold execMovwiIndexed at h
    split at h
    · cases h
    · rename_i u hu; cases h
      obtain ⟨l, hl, hw⟩ := indWrite_ok hu
      simp only [State.advance_cfg] at hl
      left; left; exact ⟨l, _, _, _, _, by simp [storeTarget, hl, Except.toOption], .inl rfl, hw, .inl ⟨.nothing, by simp [FlagWrite.Within, FlagWrite.nothing], by simp⟩⟩
  all_goals first
    | exact .inl (byteOp_form rfl (by simp [writesW]) (by intro v; simp [FlagWrite.Within, zResult, plainResult, FlagWrite.nothing, affects, add8, sub8, asr8, lsl8, lsr8, rl8, rr8, cResult, czResult]) h)
    | (cases h; left; right; exact ⟨rfl, rfl, _, _, _, .inl rfl, by simp [FlagWrite.Within, zResult, plainResult, FlagWrite.nothing, affects, add8, sub8], rfl⟩)

end Sys2Proof.Machine
end

