-- ==== Sys2Proof/Laws/PerInstr.lean ====
section
/-! SUPPORT. Per instruction: its word lies in a row of the opcode table that bears its mnemonic (R96, R105). -/

namespace Sys2Proof.Laws

/-- A word's fixed bits, one operand field below them, against the row's mask. -/
theorem masked_one {n m : Nat} (a : BitVec n) (x : BitVec m) : (a ++ x) &&& (BitVec.allOnes n ++ 0#m) = a ++ 0#m := by
  rw [BitVec.and_append, BitVec.and_allOnes, BitVec.and_zero]

/-- A word's fixed bits, two operand fields below them, against the row's mask. -/
theorem masked_two {n m l : Nat} (a : BitVec n) (x : BitVec m) (y : BitVec l) :
    (a ++ x ++ y) &&& (BitVec.allOnes n ++ 0#m ++ 0#l) = a ++ 0#m ++ 0#l := by
  rw [BitVec.and_append, masked_one, BitVec.and_zero]

/-- The mnemonic of an instruction (the table of R105). -/
def mnemonic : Instr → String
  | .addwf _ _ => "ADDWF"
  | .addwfc _ _ => "ADDWFC"
  | .andwf _ _ => "ANDWF"
  | .asrf _ _ => "ASRF"
  | .lslf _ _ => "LSLF"
  | .lsrf _ _ => "LSRF"
  | .clrf _ => "CLRF"
  | .clrw _ => "CLRW"
  | .comf _ _ => "COMF"
  | .decf _ _ => "DECF"
  | .incf _ _ => "INCF"
  | .iorwf _ _ => "IORWF"
  | .movf _ _ => "MOVF"
  | .movwf _ => "MOVWF"
  | .rlf _ _ => "RLF"
  | .rrf _ _ => "RRF"
  | .subwf _ _ => "SUBWF"
  | .subwfb _ _ => "SUBWFB"
  | .swapf _ _ => "SWAPF"
  | .xorwf _ _ => "XORWF"
  | .decfsz _ _ => "DECFSZ"
  | .incfsz _ _ => "INCFSZ"
  | .bcf _ _ => "BCF"
  | .bsf _ _ => "BSF"
  | .btfsc _ _ => "BTFSC"
  | .btfss _ _ => "BTFSS"
  | .addlw _ => "ADDLW"
  | .andlw _ => "ANDLW"
  | .iorlw _ => "IORLW"
  | .movlb _ => "MOVLB"
  | .movlp _ => "MOVLP"
  | .movlw _ => "MOVLW"
  | .sublw _ => "SUBLW"
  | .xorlw _ => "XORLW"
  | .bra _ => "BRA"
  | .brw => "BRW"
  | .call _ => "CALL"
  | .callw => "CALLW"
  | .goto _ => "GOTO"
  | .retfie => "RETFIE"
  | .retlw _ => "RETLW"
  | .ret => "RETURN"
  | .clrwdt => "CLRWDT"
  | .nop => "NOP"
  | .option => "OPTION"
  | .reset => "RESET"
  | .sleep => "SLEEP"
  | .tris5 => "TRIS"
  | .tris6 => "TRIS"
  | .tris7 => "TRIS"
  | .addfsr _ _ => "ADDFSR"
  | .moviwMode _ _ => "MOVIW"
  | .moviwIndexed _ _ => "MOVIW"
  | .movwiMode _ _ => "MOVWI"
  | .movwiIndexed _ _ => "MOVWI"

/-- The instruction's word matches a row of the opcode table, and the row has its mnemonic. -/
def InTable.Statement (i : Instr) : Prop :=
  ∃ r : OpRow, r ∈ opTable ∧ encode i &&& r.mask = r.value ∧ r.mnemonic = mnemonic i

theorem InTable.addwf (f : FileAddr) (d : Dest) : InTable.Statement (.addwf f d) :=
  ⟨_, List.mem_of_getElem? (i := 0) rfl, masked_two _ _ _, rfl⟩

theorem InTable.addwfc (f : FileAddr) (d : Dest) : InTable.Statement (.addwfc f d) :=
  ⟨_, List.mem_of_getElem? (i := 1) rfl, masked_two _ _ _, rfl⟩

theorem InTable.andwf (f : FileAddr) (d : Dest) : InTable.Statement (.andwf f d) :=
  ⟨_, List.mem_of_getElem? (i := 2) rfl, masked_two _ _ _, rfl⟩

theorem InTable.asrf (f : FileAddr) (d : Dest) : InTable.Statement (.asrf f d) :=
  ⟨_, List.mem_of_getElem? (i := 3) rfl, masked_two _ _ _, rfl⟩

theorem InTable.lslf (f : FileAddr) (d : Dest) : InTable.Statement (.lslf f d) :=
  ⟨_, List.mem_of_getElem? (i := 4) rfl, masked_two _ _ _, rfl⟩

theorem InTable.lsrf (f : FileAddr) (d : Dest) : InTable.Statement (.lsrf f d) :=
  ⟨_, List.mem_of_getElem? (i := 5) rfl, masked_two _ _ _, rfl⟩

theorem InTable.clrf (f : FileAddr) : InTable.Statement (.clrf f) :=
  ⟨_, List.mem_of_getElem? (i := 6) rfl, masked_one _ _, rfl⟩

theorem InTable.clrw (x : BitVec 2) : InTable.Statement (.clrw x) :=
  ⟨_, List.mem_of_getElem? (i := 7) rfl, masked_one _ _, rfl⟩

theorem InTable.comf (f : FileAddr) (d : Dest) : InTable.Statement (.comf f d) :=
  ⟨_, List.mem_of_getElem? (i := 8) rfl, masked_two _ _ _, rfl⟩

theorem InTable.decf (f : FileAddr) (d : Dest) : InTable.Statement (.decf f d) :=
  ⟨_, List.mem_of_getElem? (i := 9) rfl, masked_two _ _ _, rfl⟩

theorem InTable.incf (f : FileAddr) (d : Dest) : InTable.Statement (.incf f d) :=
  ⟨_, List.mem_of_getElem? (i := 10) rfl, masked_two _ _ _, rfl⟩

theorem InTable.iorwf (f : FileAddr) (d : Dest) : InTable.Statement (.iorwf f d) :=
  ⟨_, List.mem_of_getElem? (i := 11) rfl, masked_two _ _ _, rfl⟩

theorem InTable.movf (f : FileAddr) (d : Dest) : InTable.Statement (.movf f d) :=
  ⟨_, List.mem_of_getElem? (i := 12) rfl, masked_two _ _ _, rfl⟩

theorem InTable.movwf (f : FileAddr) : InTable.Statement (.movwf f) :=
  ⟨_, List.mem_of_getElem? (i := 13) rfl, masked_one _ _, rfl⟩

theorem InTable.rlf (f : FileAddr) (d : Dest) : InTable.Statement (.rlf f d) :=
  ⟨_, List.mem_of_getElem? (i := 14) rfl, masked_two _ _ _, rfl⟩

theorem InTable.rrf (f : FileAddr) (d : Dest) : InTable.Statement (.rrf f d) :=
  ⟨_, List.mem_of_getElem? (i := 15) rfl, masked_two _ _ _, rfl⟩

theorem InTable.subwf (f : FileAddr) (d : Dest) : InTable.Statement (.subwf f d) :=
  ⟨_, List.mem_of_getElem? (i := 16) rfl, masked_two _ _ _, rfl⟩

theorem InTable.subwfb (f : FileAddr) (d : Dest) : InTable.Statement (.subwfb f d) :=
  ⟨_, List.mem_of_getElem? (i := 17) rfl, masked_two _ _ _, rfl⟩

theorem InTable.swapf (f : FileAddr) (d : Dest) : InTable.Statement (.swapf f d) :=
  ⟨_, List.mem_of_getElem? (i := 18) rfl, masked_two _ _ _, rfl⟩

theorem InTable.xorwf (f : FileAddr) (d : Dest) : InTable.Statement (.xorwf f d) :=
  ⟨_, List.mem_of_getElem? (i := 19) rfl, masked_two _ _ _, rfl⟩

theorem InTable.decfsz (f : FileAddr) (d : Dest) : InTable.Statement (.decfsz f d) :=
  ⟨_, List.mem_of_getElem? (i := 20) rfl, masked_two _ _ _, rfl⟩

theorem InTable.incfsz (f : FileAddr) (d : Dest) : InTable.Statement (.incfsz f d) :=
  ⟨_, List.mem_of_getElem? (i := 21) rfl, masked_two _ _ _, rfl⟩

theorem InTable.bcf (f : FileAddr) (b : BitVec 3) : InTable.Statement (.bcf f b) :=
  ⟨_, List.mem_of_getElem? (i := 22) rfl, masked_two _ _ _, rfl⟩

theorem InTable.bsf (f : FileAddr) (b : BitVec 3) : InTable.Statement (.bsf f b) :=
  ⟨_, List.mem_of_getElem? (i := 23) rfl, masked_two _ _ _, rfl⟩

theorem InTable.btfsc (f : FileAddr) (b : BitVec 3) : InTable.Statement (.btfsc f b) :=
  ⟨_, List.mem_of_getElem? (i := 24) rfl, masked_two _ _ _, rfl⟩

theorem InTable.btfss (f : FileAddr) (b : BitVec 3) : InTable.Statement (.btfss f b) :=
  ⟨_, List.mem_of_getElem? (i := 25) rfl, masked_two _ _ _, rfl⟩

theorem InTable.addlw (k : Byte) : InTable.Statement (.addlw k) :=
  ⟨_, List.mem_of_getElem? (i := 26) rfl, masked_one _ _, rfl⟩

theorem InTable.andlw (k : Byte) : InTable.Statement (.andlw k) :=
  ⟨_, List.mem_of_getElem? (i := 27) rfl, masked_one _ _, rfl⟩

theorem InTable.iorlw (k : Byte) : InTable.Statement (.iorlw k) :=
  ⟨_, List.mem_of_getElem? (i := 28) rfl, masked_one _ _, rfl⟩

theorem InTable.movlb (k : BitVec 5) : InTable.Statement (.movlb k) :=
  ⟨_, List.mem_of_getElem? (i := 29) rfl, masked_one _ _, rfl⟩

theorem InTable.movlp (k : BitVec 7) : InTable.Statement (.movlp k) :=
  ⟨_, List.mem_of_getElem? (i := 30) rfl, masked_one _ _, rfl⟩

theorem InTable.movlw (k : Byte) : InTable.Statement (.movlw k) :=
  ⟨_, List.mem_of_getElem? (i := 31) rfl, masked_one _ _, rfl⟩

theorem InTable.sublw (k : Byte) : InTable.Statement (.sublw k) :=
  ⟨_, List.mem_of_getElem? (i := 32) rfl, masked_one _ _, rfl⟩

theorem InTable.xorlw (k : Byte) : InTable.Statement (.xorlw k) :=
  ⟨_, List.mem_of_getElem? (i := 33) rfl, masked_one _ _, rfl⟩

theorem InTable.bra (k : Int) : InTable.Statement (.bra k) :=
  ⟨_, List.mem_of_getElem? (i := 34) rfl, masked_one _ _, rfl⟩

theorem InTable.brw : InTable.Statement .brw :=
  ⟨_, List.mem_of_getElem? (i := 35) rfl, rfl, rfl⟩

theorem InTable.call (k : BitVec 11) : InTable.Statement (.call k) :=
  ⟨_, List.mem_of_getElem? (i := 36) rfl, masked_one _ _, rfl⟩

theorem InTable.callw : InTable.Statement .callw :=
  ⟨_, List.mem_of_getElem? (i := 37) rfl, rfl, rfl⟩

theorem InTable.goto (k : BitVec 11) : InTable.Statement (.goto k) :=
  ⟨_, List.mem_of_getElem? (i := 38) rfl, masked_one _ _, rfl⟩

theorem InTable.retfie : InTable.Statement .retfie :=
  ⟨_, List.mem_of_getElem? (i := 39) rfl, rfl, rfl⟩

theorem InTable.retlw (k : Byte) : InTable.Statement (.retlw k) :=
  ⟨_, List.mem_of_getElem? (i := 40) rfl, masked_one _ _, rfl⟩

theorem InTable.ret : InTable.Statement .ret :=
  ⟨_, List.mem_of_getElem? (i := 41) rfl, rfl, rfl⟩

theorem InTable.clrwdt : InTable.Statement .clrwdt :=
  ⟨_, List.mem_of_getElem? (i := 42) rfl, rfl, rfl⟩

theorem InTable.nop : InTable.Statement .nop :=
  ⟨_, List.mem_of_getElem? (i := 43) rfl, rfl, rfl⟩

theorem InTable.option : InTable.Statement .option :=
  ⟨_, List.mem_of_getElem? (i := 44) rfl, rfl, rfl⟩

theorem InTable.reset : InTable.Statement .reset :=
  ⟨_, List.mem_of_getElem? (i := 45) rfl, rfl, rfl⟩

theorem InTable.sleep : InTable.Statement .sleep :=
  ⟨_, List.mem_of_getElem? (i := 46) rfl, rfl, rfl⟩

theorem InTable.tris5 : InTable.Statement .tris5 :=
  ⟨_, List.mem_of_getElem? (i := 47) rfl, rfl, rfl⟩

theorem InTable.tris6 : InTable.Statement .tris6 :=
  ⟨_, List.mem_of_getElem? (i := 48) rfl, rfl, rfl⟩

theorem InTable.tris7 : InTable.Statement .tris7 :=
  ⟨_, List.mem_of_getElem? (i := 49) rfl, rfl, rfl⟩

theorem InTable.addfsr (n : FsrSel) (k : Int) : InTable.Statement (.addfsr n k) :=
  ⟨_, List.mem_of_getElem? (i := 50) rfl, masked_two _ _ _, rfl⟩

theorem InTable.moviwMode (n : FsrSel) (mm : FsrMode) : InTable.Statement (.moviwMode n mm) :=
  ⟨_, List.mem_of_getElem? (i := 51) rfl, masked_two _ _ _, rfl⟩

theorem InTable.moviwIndexed (n : FsrSel) (k : Int) : InTable.Statement (.moviwIndexed n k) :=
  ⟨_, List.mem_of_getElem? (i := 52) rfl, masked_two _ _ _, rfl⟩

theorem InTable.movwiMode (n : FsrSel) (mm : FsrMode) : InTable.Statement (.movwiMode n mm) :=
  ⟨_, List.mem_of_getElem? (i := 53) rfl, masked_two _ _ _, rfl⟩

theorem InTable.movwiIndexed (n : FsrSel) (k : Int) : InTable.Statement (.movwiIndexed n k) :=
  ⟨_, List.mem_of_getElem? (i := 54) rfl, masked_two _ _ _, rfl⟩

end Sys2Proof.Laws
end

