-- ==== Sys2Proof/Tests/Slice0.lean ====
section
/-! SUPPORT. Small tests: what the well-formedness checks refuse, the decoding of a word of every constructor written out from the
patterns of Table 28-3 (R105), one or two steps of every instruction on the vectors of spec/95_test_vectors.md, and for every
statement with hypotheses a witness that meets them. -/

namespace Sys2Proof.Tests
open Sys2Proof Sys2Proof.Machine

/-- The start state of the vectors of spec/95_test_vectors.md section 2. -/
def at100 : State := { State.reset with pc := 0x0100 }

/-- The same with one byte of RAM. -/
def withByte (a : Nat) (v : Byte) : State := { at100 with ram := [(a, v)] }

/-- C, DC, Z. -/
def flags (s : State) : Bool × Bool × Bool := (s.c, s.dc, s.z)

/-- The outcome is a next state of which `p` holds. -/
def nextIs (r : Result) (p : State → Bool) : Bool :=
  match r with
  | .next t => p t
  | .fault _ => false
  | .refused _ => false

/-- The outcome is this refusal. -/
def refusedWith (r : Result) (e : Refusal) : Bool :=
  match r with
  | .next _ => false
  | .fault _ => false
  | .refused d => d == e

/-- One step that runs the word `w`. -/
def stepOf (w : Nat) (s : State) : Result := step (s.withFetchWord 14 w)

/-! ## Well-formedness: ill-formed terms, which the checks refuse -/

theorem test_bra_out_of_range : (Instr.bra 256).wellFormed = false ∧ (Instr.bra (-257)).wellFormed = false := by decide
theorem test_addfsr_out_of_range :
    (Instr.addfsr .fsr0 32).wellFormed = false ∧ (Instr.addfsr .fsr1 (-33)).wellFormed = false := by decide
theorem test_moviw_out_of_range :
    (Instr.moviwIndexed .fsr0 32).wellFormed = false ∧ (Instr.moviwIndexed .fsr1 (-33)).wellFormed = false := by decide
theorem test_movwi_out_of_range :
    (Instr.movwiIndexed .fsr0 32).wellFormed = false ∧ (Instr.movwiIndexed .fsr1 (-33)).wellFormed = false := by decide
theorem test_gpr_range_refused :
    GprRange.wellFormed ⟨0x06F, 0x020⟩ = false ∧ GprRange.wellFormed ⟨0xFA0, 0x1000⟩ = false ∧
    GprRange.wellFormed ⟨0x020, 0x0A0⟩ = false ∧ GprRange.wellFormed ⟨0x01F, 0x06F⟩ = false ∧
    GprRange.wellFormed ⟨0x020, 0x070⟩ = false := by decide
theorem test_params_refused :
    ({ params1508 with pmWords := 0 } : Params).wellFormed = false ∧
    ({ params1508 with pmWords := 32769 } : Params).wellFormed = false ∧
    ({ params1508 with stackDepth := 0 } : Params).wellFormed = false ∧
    ({ params1508 with stackDepth := 17 } : Params).wellFormed = false ∧
    ({ params1508 with gprMap := [⟨0x070, 0x07F⟩] } : Params).wellFormed = false := by decide
theorem test_params_map_refused :
    ({ params1508 with nbanks := 0 } : Params).wellFormed = false ∧ ({ params1508 with nbanks := 33 } : Params).wellFormed = false ∧
    ({ params1508 with coreRegMap := [.indf0] } : Params).wellFormed = false ∧
    ({ params1508 with coreRegMap := List.replicate 12 .wreg } : Params).wellFormed = false ∧
    ({ params1508 with
        stackDepth := 1
        resetValues := { resetValuesDefault with others := { otherResetsColumn with stack := [0, 0] } } } : Params).wellFormed =
      false := by decide
theorem test_params_admitted : params1508.wellFormed = true ∧ params1509.wellFormed = true := by decide

/-! ## Decoding: one word per constructor, written out from the pattern column of R105 -/

/-- Pattern: 00 0111 1 0100000. -/
theorem test_decode_addwf : decode 0b00011110100000#14 = .ok (.addwf 0x20 .f) := by decide
/-- Pattern: 11 1101 0 0100000. -/
theorem test_decode_addwfc : decode 0b11110100100000#14 = .ok (.addwfc 0x20 .w) := by decide
/-- Pattern: 00 0101 1 1110000. -/
theorem test_decode_andwf : decode 0b00010111110000#14 = .ok (.andwf 0x70 .f) := by decide
/-- Pattern: 11 0111 0 0000001. -/
theorem test_decode_asrf : decode 0b11011100000001#14 = .ok (.asrf 0x01 .w) := by decide
/-- Pattern: 11 0101 1 0100000. -/
theorem test_decode_lslf : decode 0b11010110100000#14 = .ok (.lslf 0x20 .f) := by decide
/-- Pattern: 11 0110 0 0100000. -/
theorem test_decode_lsrf : decode 0b11011000100000#14 = .ok (.lsrf 0x20 .w) := by decide
/-- Pattern: 00 0001 1 1111111. -/
theorem test_decode_clrf : decode 0b00000111111111#14 = .ok (.clrf 0x7F) := by decide
/-- Pattern: 00 0001 0000 0010. -/
theorem test_decode_clrw : decode 0b00000100000010#14 = .ok (.clrw 2) := by decide
/-- Pattern: 00 1001 1 0100001. -/
theorem test_decode_comf : decode 0b00100110100001#14 = .ok (.comf 0x21 .f) := by decide
/-- Pattern: 00 0011 0 0100001. -/
theorem test_decode_decf : decode 0b00001100100001#14 = .ok (.decf 0x21 .w) := by decide
/-- Pattern: 00 1010 1 0000010. -/
theorem test_decode_incf : decode 0b00101010000010#14 = .ok (.incf 0x02 .f) := by decide
/-- Pattern: 00 0100 0 0000011. -/
theorem test_decode_iorwf : decode 0b00010000000011#14 = .ok (.iorwf 0x03 .w) := by decide
/-- Pattern: 00 1000 1 0000100. -/
theorem test_decode_movf : decode 0b00100010000100#14 = .ok (.movf 0x04 .f) := by decide
/-- Pattern: 00 0000 1 0000101. -/
theorem test_decode_movwf : decode 0b00000010000101#14 = .ok (.movwf 0x05) := by decide
/-- Pattern: 00 1101 0 0100000. -/
theorem test_decode_rlf : decode 0b00110100100000#14 = .ok (.rlf 0x20 .w) := by decide
/-- Pattern: 00 1100 1 0100000. -/
theorem test_decode_rrf : decode 0b00110010100000#14 = .ok (.rrf 0x20 .f) := by decide
/-- Pattern: 00 0010 0 0100010. -/
theorem test_decode_subwf : decode 0b00001000100010#14 = .ok (.subwf 0x22 .w) := by decide
/-- Pattern: 11 1011 1 0100010. -/
theorem test_decode_subwfb : decode 0b11101110100010#14 = .ok (.subwfb 0x22 .f) := by decide
/-- Pattern: 00 1110 0 0001001. -/
theorem test_decode_swapf : decode 0b00111000001001#14 = .ok (.swapf 0x09 .w) := by decide
/-- Pattern: 00 0110 1 0100000. -/
theorem test_decode_xorwf : decode 0b00011010100000#14 = .ok (.xorwf 0x20 .f) := by decide
/-- Pattern: 00 1011 1 0100000. -/
theorem test_decode_decfsz : decode 0b00101110100000#14 = .ok (.decfsz 0x20 .f) := by decide
/-- Pattern: 00 1111 0 0100000. -/
theorem test_decode_incfsz : decode 0b00111100100000#14 = .ok (.incfsz 0x20 .w) := by decide
/-- Pattern: 01 00 101 0100000. -/
theorem test_decode_bcf : decode 0b01001010100000#14 = .ok (.bcf 0x20 5) := by decide
/-- Pattern: 01 01 110 0100001. -/
theorem test_decode_bsf : decode 0b01011100100001#14 = .ok (.bsf 0x21 6) := by decide
/-- Pattern: 01 10 001 0100000. -/
theorem test_decode_btfsc : decode 0b01100010100000#14 = .ok (.btfsc 0x20 1) := by decide
/-- Pattern: 01 11 011 0000011. -/
theorem test_decode_btfss : decode 0b01110110000011#14 = .ok (.btfss 0x03 3) := by decide
/-- Pattern: 11 1110 00010101. -/
theorem test_decode_addlw : decode 0b11111000010101#14 = .ok (.addlw 0x15) := by decide
/-- Pattern: 11 1001 01011111. -/
theorem test_decode_andlw : decode 0b11100101011111#14 = .ok (.andlw 0x5F) := by decide
/-- Pattern: 11 1000 00110101. -/
theorem test_decode_iorlw : decode 0b11100000110101#14 = .ok (.iorlw 0x35) := by decide
/-- Pattern: 00 0000 001 10110. -/
theorem test_decode_movlb : decode 0b00000000110110#14 = .ok (.movlb 0x16) := by decide
/-- Pattern: 11 0001 1 1001000. -/
theorem test_decode_movlp : decode 0b11000111001000#14 = .ok (.movlp 0x48) := by decide
/-- Pattern: 11 0000 01011010. -/
theorem test_decode_movlw : decode 0b11000001011010#14 = .ok (.movlw 0x5A) := by decide
/-- Pattern: 11 1100 00000010. -/
theorem test_decode_sublw : decode 0b11110000000010#14 = .ok (.sublw 0x02) := by decide
/-- Pattern: 11 1010 10101111. -/
theorem test_decode_xorlw : decode 0b11101010101111#14 = .ok (.xorlw 0xAF) := by decide
/-- Pattern: 11 001 1 0000 0010. -/
theorem test_decode_bra : decode 0b11001100000010#14 = .ok (.bra (-254)) := by decide
/-- Pattern: 00 0000 0000 1011. -/
theorem test_decode_brw : decode 0b00000000001011#14 = .ok (.brw) := by decide
/-- Pattern: 10 0 011 0100 0101. -/
theorem test_decode_call : decode 0b10001101000101#14 = .ok (.call 0x345) := by decide
/-- Pattern: 00 0000 0000 1010. -/
theorem test_decode_callw : decode 0b00000000001010#14 = .ok (.callw) := by decide
/-- Pattern: 10 1 110 0000 0001. -/
theorem test_decode_goto : decode 0b10111000000001#14 = .ok (.goto 0x601) := by decide
/-- Pattern: 00 0000 0000 1001. -/
theorem test_decode_retfie : decode 0b00000000001001#14 = .ok (.retfie) := by decide
/-- Pattern: 11 0100 01000010. -/
theorem test_decode_retlw : decode 0b11010001000010#14 = .ok (.retlw 0x42) := by decide
/-- Pattern: 00 0000 0000 1000. -/
theorem test_decode_ret : decode 0b00000000001000#14 = .ok (.ret) := by decide
/-- Pattern: 00 0000 0110 0100. -/
theorem test_decode_clrwdt : decode 0b00000001100100#14 = .ok (.clrwdt) := by decide
/-- Pattern: 00 0000 0000 0000. -/
theorem test_decode_nop : decode 0b00000000000000#14 = .ok (.nop) := by decide
/-- Pattern: 00 0000 0110 0010. -/
theorem test_decode_option : decode 0b00000001100010#14 = .ok (.option) := by decide
/-- Pattern: 00 0000 0000 0001. -/
theorem test_decode_reset : decode 0b00000000000001#14 = .ok (.reset) := by decide
/-- Pattern: 00 0000 0110 0011. -/
theorem test_decode_sleep : decode 0b00000001100011#14 = .ok (.sleep) := by decide
/-- Pattern: 00 0000 0110 0101. -/
theorem test_decode_tris5 : decode 0b00000001100101#14 = .ok (.tris5) := by decide
/-- Pattern: 00 0000 0110 0110. -/
theorem test_decode_tris6 : decode 0b00000001100110#14 = .ok (.tris6) := by decide
/-- Pattern: 00 0000 0110 0111. -/
theorem test_decode_tris7 : decode 0b00000001100111#14 = .ok (.tris7) := by decide
/-- Pattern: 11 0001 0 1 100000. -/
theorem test_decode_addfsr : decode 0b11000101100000#14 = .ok (.addfsr .fsr1 (-32)) := by decide
/-- Pattern: 00 0000 0001 0 0 01. -/
theorem test_decode_moviwMode : decode 0b00000000010001#14 = .ok (.moviwMode .fsr0 .preDec) := by decide
/-- Pattern: 11 1111 0 1 000101. -/
theorem test_decode_moviwIndexed : decode 0b11111101000101#14 = .ok (.moviwIndexed .fsr1 5) := by decide
/-- Pattern: 00 0000 0001 1 1 10. -/
theorem test_decode_movwiMode : decode 0b00000000011110#14 = .ok (.movwiMode .fsr1 .postInc) := by decide
/-- Pattern: 11 1111 1 0 111111. -/
theorem test_decode_movwiIndexed : decode 0b11111110111111#14 = .ok (.movwiIndexed .fsr0 (-1)) := by decide
/-- Neighbours of the reserved ranges (R108). -/
theorem test_decode_reserved :
    decode 0x0002#14 = .error (.reservedOpcode 0x0002#14) ∧ decode 0x0061#14 = .error (.reservedOpcode 0x0061#14) ∧
    decode 0x017F#14 = .error (.reservedOpcode 0x017F#14) := by decide
theorem test_decode_bytes :
    decodeBytes [0xA0, 0x07, 0x63, 0x00] = .ok (.addwf 0x20 .f, [0x63, 0x00]) ∧ decodeBytes [0x00] = .error .tooFewBytes ∧
    decodeBytes [0x00, 0x40] = .error (.wordTooWide 0x4000) := by decide

/-! ## Syntax lines (R112 to R116) -/

theorem test_assemble :
    assemble 0x0100 ⟨.addwf, .fileDest 0x02 none⟩ = some (.addwf 0x02 .f) ∧ assemble 0x0100 ⟨.bra, .here 0⟩ = some (.bra (-1)) ∧
    assemble 0x0015 ⟨.bra, .label 0x0014⟩ = some (.bra (-2)) ∧ assemble 0 ⟨.tris, .file 4⟩ = none ∧
    assemble 0 ⟨.moviw, .stepped .fsr1 .postDec⟩ = some (.moviwMode .fsr1 .postDec) ∧
    assemble 0 ⟨.movlb, .literal 32⟩ = none ∧ assemble 0 ⟨.nop, .literal 0⟩ = none := by decide

/-! ## One step of each instruction (spec/95_test_vectors.md sections 2.1 to 2.9) -/

theorem test_addwf_to_f :
    nextIs (stepOf 0x07A0 { withByte 0x20 0x80 with w := 0x80 }) (fun t => t.pc == 0x101 && t.ram == [(0x20, 0x00)] && t.w == 0x80 && flags t == (true, false, true)) = true := by decide
theorem test_addwfc_carry_in :
    nextIs (stepOf 0x3DA0 { withByte 0x20 0x02 with w := 0x4D, c := true }) (fun t => t.pc == 0x101 && t.ram == [(0x20, 0x50)] && flags t == (false, true, false)) = true := by decide
theorem test_addwfc_wraps :
    nextIs (stepOf 0x3D20 { withByte 0x20 0x00 with w := 0xFF, c := true }) (fun t => t.pc == 0x101 && t.w == 0 && flags t == (true, true, true)) = true := by decide
theorem test_andwf_keeps_c :
    nextIs (stepOf 0x05A0 { withByte 0x20 0x0F with w := 0xF0, c := true, dc := true }) (fun t => t.pc == 0x101 && t.ram == [(0x20, 0x00)] && flags t == (true, true, true)) = true := by decide
theorem test_asrf_keeps_sign :
    nextIs (stepOf 0x37A0 (withByte 0x20 0x81)) (fun t => t.pc == 0x101 && t.ram == [(0x20, 0xC0)] && flags t == (true, false, false)) = true := by decide
theorem test_asrf_clears_c :
    nextIs (stepOf 0x3720 { withByte 0x20 0x7E with c := true }) (fun t => t.pc == 0x101 && t.w == 0x3F && flags t == (false, false, false)) = true := by decide
theorem test_lslf :
    nextIs (stepOf 0x35A0 (withByte 0x20 0x81)) (fun t => t.pc == 0x101 && t.ram == [(0x20, 0x02)] && flags t == (true, false, false)) = true := by decide
theorem test_lsrf :
    nextIs (stepOf 0x36A0 (withByte 0x20 0x81)) (fun t => t.pc == 0x101 && t.ram == [(0x20, 0x40)] && flags t == (true, false, false)) = true := by decide
theorem test_clrf :
    nextIs (stepOf 0x01A0 { at100 with c := true, dc := true }) (fun t => t.pc == 0x101 && t.ram == [(0x20, 0x00)] && flags t == (true, true, true)) = true := by decide
theorem test_clrw :
    nextIs (stepOf 0x0103 { at100 with w := 0x5A }) (fun t => t.pc == 0x101 && t.w == 0 && flags t == (false, false, true)) = true := by decide
theorem test_comf :
    nextIs (stepOf 0x0920 (withByte 0x20 0x13)) (fun t => t.pc == 0x101 && t.w == 0xEC && t.ram == [(0x20, 0x13)] && flags t == (false, false, false)) = true := by decide
theorem test_decf_wraps :
    nextIs (stepOf 0x03A0 { withByte 0x20 0x00 with c := true }) (fun t => t.pc == 0x101 && t.ram == [(0x20, 0xFF)] && flags t == (true, false, false)) = true := by decide
theorem test_incf_wraps :
    nextIs (stepOf 0x0AA0 (withByte 0x20 0xFF)) (fun t => t.pc == 0x101 && t.ram == [(0x20, 0x00)] && flags t == (false, false, true)) = true := by decide
theorem test_iorwf :
    nextIs (stepOf 0x0420 { withByte 0x20 0x13 with w := 0x91 }) (fun t => t.pc == 0x101 && t.w == 0x93 && flags t == (false, false, false)) = true := by decide
theorem test_movf_tests :
    nextIs (stepOf 0x08A0 { withByte 0x20 0x01 with z := true }) (fun t => t.pc == 0x101 && t.ram == [(0x20, 0x01)] && flags t == (false, false, false)) = true := by decide
theorem test_movwf_option_reg :
    nextIs (stepOf 0x0095 { at100 with w := 0x4F, bsr := 1, z := true }) (fun t => t.pc == 0x101 && t.optionReg == 0x4F && flags t == (false, false, true)) = true := by decide
theorem test_movwf_common_ram :
    nextIs (stepOf 0x00F0 { at100 with w := 0xA5, bsr := 7 }) (fun t => t.pc == 0x101 && t.ram == [(0x70, 0xA5)]) = true := by decide
theorem test_rlf_example :
    nextIs (stepOf 0x0D20 (withByte 0x20 0xE6)) (fun t => t.pc == 0x101 && t.w == 0xCC && t.ram == [(0x20, 0xE6)] && flags t == (true, false, false)) = true := by decide
theorem test_rrf_carry_in :
    nextIs (stepOf 0x0CA0 { withByte 0x20 0x01 with c := true }) (fun t => t.pc == 0x101 && t.ram == [(0x20, 0x80)] && flags t == (true, false, false)) = true := by decide
theorem test_subwf_borrow :
    nextIs (stepOf 0x02A0 { withByte 0x20 0x01 with w := 2 }) (fun t => t.pc == 0x101 && t.ram == [(0x20, 0xFF)] && flags t == (false, false, false)) = true := by decide
theorem test_subwf_digit_borrow :
    nextIs (stepOf 0x0220 { withByte 0x20 0x10 with w := 1 }) (fun t => t.pc == 0x101 && t.w == 0x0F && flags t == (true, false, false)) = true := by decide
theorem test_subwfb_borrow_in :
    nextIs (stepOf 0x3BA0 { withByte 0x20 0x05 with w := 2 }) (fun t => t.pc == 0x101 && t.ram == [(0x20, 0x02)] && flags t == (true, true, false)) = true := by decide
theorem test_subwfb_wraps :
    nextIs (stepOf 0x3B20 { withByte 0x20 0x00 with w := 0xFF }) (fun t => t.pc == 0x101 && t.w == 0 && flags t == (false, false, true)) = true := by decide
theorem test_swapf :
    nextIs (stepOf 0x0E20 { withByte 0x20 0xA5 with z := true }) (fun t => t.pc == 0x101 && t.w == 0x5A && flags t == (false, false, true)) = true := by decide
theorem test_xorwf :
    nextIs (stepOf 0x06A0 { withByte 0x20 0xAF with w := 0xB5 }) (fun t => t.pc == 0x101 && t.ram == [(0x20, 0x1A)] && flags t == (false, false, false)) = true := by decide
theorem test_decfsz_skips :
    nextIs (stepOf 0x0B20 { withByte 0x20 0x01 with w := 0x55 }) (fun t => t.pc == 0x102 && t.w == 0 && flags t == (false, false, false)) = true := by decide
theorem test_decfsz_goes_on :
    nextIs (stepOf 0x0BA0 (withByte 0x20 0x00)) (fun t => t.pc == 0x101 && t.ram == [(0x20, 0xFF)] && flags t == (false, false, false)) = true := by decide
theorem test_incfsz_skips :
    nextIs (stepOf 0x0FA0 (withByte 0x20 0xFF)) (fun t => t.pc == 0x102 && t.ram == [(0x20, 0x00)] && flags t == (false, false, false)) = true := by decide
theorem test_incfsz_goes_on :
    nextIs (stepOf 0x0F20 (withByte 0x20 0x00)) (fun t => t.pc == 0x101 && t.w == 1 && t.ram == [(0x20, 0x00)]) = true := by decide
theorem test_bcf :
    nextIs (stepOf 0x13A0 (withByte 0x20 0xC7)) (fun t => t.pc == 0x101 && t.ram == [(0x20, 0x47)] && flags t == (false, false, false)) = true := by decide
theorem test_bcf_status :
    nextIs (stepOf 0x1103 { at100 with c := true, z := true }) (fun t => t.pc == 0x101 && flags t == (true, false, false)) = true := by decide
theorem test_bsf :
    nextIs (stepOf 0x17A0 (withByte 0x20 0x0A)) (fun t => t.pc == 0x101 && t.ram == [(0x20, 0x8A)]) = true := by decide
theorem test_bsf_through_fsr :
    nextIs (stepOf 0x1480 { withByte 0x70 0x00 with fsr0 := 0x0070 }) (fun t => t.pc == 0x101 && t.ram == [(0x70, 0x02)]) = true := by decide
theorem test_btfsc_skips :
    nextIs (stepOf 0x18A0 (withByte 0x20 0xFD)) (fun t => t.pc == 0x102 && t.ram == [(0x20, 0xFD)]) = true := by decide
theorem test_btfsc_goes_on :
    nextIs (stepOf 0x18A0 (withByte 0x20 0x02)) (fun t => t.pc == 0x101 && t.ram == [(0x20, 0x02)]) = true := by decide
theorem test_btfss_skips :
    nextIs (stepOf 0x1FA0 (withByte 0x20 0x80)) (fun t => t.pc == 0x102 && t.ram == [(0x20, 0x80)]) = true := by decide
theorem test_btfss_goes_on :
    nextIs (stepOf 0x1FA0 (withByte 0x20 0x7F)) (fun t => t.pc == 0x101 && t.ram == [(0x20, 0x7F)]) = true := by decide
theorem test_addlw :
    nextIs (stepOf 0x3E08 { at100 with w := 8 }) (fun t => t.pc == 0x101 && t.w == 0x10 && flags t == (false, true, false)) = true := by decide
theorem test_andlw :
    nextIs (stepOf 0x390F { at100 with w := 0xF0, c := true }) (fun t => t.pc == 0x101 && t.w == 0 && flags t == (true, false, true)) = true := by decide
theorem test_iorlw :
    nextIs (stepOf 0x3835 { at100 with w := 0x9A }) (fun t => t.pc == 0x101 && t.w == 0xBF && flags t == (false, false, false)) = true := by decide
theorem test_movlb :
    nextIs (stepOf 0x003F at100) (fun t => t.pc == 0x101 && t.bsr == 0x1F) = true := by decide
theorem test_movlp :
    nextIs (stepOf 0x31FF at100) (fun t => t.pc == 0x101 && t.pclath == 0x7F) = true := by decide
theorem test_movlw :
    nextIs (stepOf 0x3000 { at100 with w := 0x77 }) (fun t => t.pc == 0x101 && t.w == 0 && flags t == (false, false, false)) = true := by decide
theorem test_sublw_borrow :
    nextIs (stepOf 0x3C02 { at100 with w := 3 }) (fun t => t.pc == 0x101 && t.w == 0xFF && flags t == (false, false, false)) = true := by decide
theorem test_sublw_equal :
    nextIs (stepOf 0x3C02 { at100 with w := 2 }) (fun t => t.pc == 0x101 && t.w == 0 && flags t == (true, true, true)) = true := by decide
theorem test_xorlw :
    nextIs (stepOf 0x3AFF { at100 with w := 0xFF }) (fun t => t.pc == 0x101 && t.w == 0 && flags t == (false, false, true)) = true := by decide
theorem test_bra_forward :
    nextIs (stepOf 0x32FF at100) (fun t => t.pc == 0x200) = true := by decide
theorem test_bra_wraps :
    nextIs (stepOf 0x3300 { at100 with pc := 0x0010 }) (fun t => t.pc == 0x7F11) = true := by decide
theorem test_brw :
    nextIs (stepOf 0x000B { at100 with w := 0xFF }) (fun t => t.pc == 0x200) = true := by decide
theorem test_call_far :
    nextIs (stepOf 0x27FF { at100 with pclath := 0x7F }) (fun t => t.pc == 0x7FFF && t.stack == [0x101] && t.pclath == 0x7F) = true := by decide
theorem test_call_ignores_low_pclath :
    nextIs (stepOf 0x2000 { at100 with pclath := 0x0F }) (fun t => t.pc == 0x0800 && t.stack == [0x101]) = true := by decide
theorem test_callw :
    nextIs (stepOf 0x000A { at100 with w := 0x34, pclath := 0x12 }) (fun t => t.pc == 0x1234 && t.stack == [0x101]) = true := by decide
theorem test_goto :
    nextIs (stepOf 0x2B45 { at100 with pclath := 0x18 }) (fun t => t.pc == 0x1B45 && t.stack == []) = true := by decide
theorem test_return :
    nextIs (stepOf 0x0008 { at100 with stack := [0x0123, 0x0042] }) (fun t => t.pc == 0x123 && t.stack == [0x42]) = true := by decide
theorem test_return_underflow :
    nextIs (stepOf 0x0008 { at100 with w := 0x12, bsr := 3 }) (fun t => t.pc == 0 && t.pcon.stkunf && t.w == 0x12 && t.bsr == 0) = true := by decide
theorem test_retlw :
    nextIs (stepOf 0x345A { at100 with stack := [0x0123], z := true }) (fun t => t.pc == 0x123 && t.w == 0x5A && t.stack == [] && flags t == (false, false, true)) = true := by decide
theorem test_retlw_underflow :
    nextIs (stepOf 0x345A at100) (fun t => t.pc == 0 && t.pcon.stkunf && t.w == 0x5A) = true := by decide
theorem test_retfie :
    nextIs (stepOf 0x0009 { at100 with
      stack := [0x0123], w := 0xEE, dc := true, bsr := 1, wShad := 0x55, statusShad := 0b101, bsrShad := 3, pclathShad := 0x12
      fsr0Shad := 0x2000, fsr1Shad := 0x0070, unwrittenShadows := [] }) (fun t => t.pc == 0x123 && t.gie && t.w == 0x55 && flags t == (true, false, true) && t.bsr == 3 && t.pclath == 0x12 && t.fsr0 == 0x2000 &&
      t.fsr1 == 0x70) = true := by decide
theorem test_clrwdt :
    nextIs (stepOf 0x0064 { at100 with nTO := false, nPD := false, wdt := 5 }) (fun t => t.pc == 0x101 && t.nTO && t.nPD && t.wdt == 0) = true := by decide
theorem test_nop :
    nextIs (stepOf 0x0000 at100) (fun t => t.pc == 0x101 && t.ram == []) = true := by decide
theorem test_option :
    nextIs (stepOf 0x0062 { at100 with w := 0x4F, bsr := 3 }) (fun t => t.pc == 0x101 && t.optionReg == 0x4F) = true := by decide
theorem test_tris5 :
    nextIs (stepOf 0x0065 { at100 with w := 0x0F }) (fun t => t.pc == 0x101 && t.trisA == 0x0F && t.trisB == 0xFF && t.trisC == 0xFF) = true := by decide
theorem test_tris6 :
    nextIs (stepOf 0x0066 { at100 with w := 0xF0 }) (fun t => t.pc == 0x101 && t.trisA == 0xFF && t.trisB == 0xF0 && t.trisC == 0xFF) = true := by decide
theorem test_tris7 :
    nextIs (stepOf 0x0067 { at100 with w := 0, bsr := 9 }) (fun t => t.pc == 0x101 && t.trisA == 0xFF && t.trisB == 0xFF && t.trisC == 0) = true := by decide
theorem test_reset :
    nextIs (stepOf 0x0001 { at100 with w := 0x12, bsr := 3, optionReg := 0 }) (fun t => t.pc == 0 && !t.pcon.nRI && t.w == 0x12 && t.bsr == 0 && t.optionReg == 0xFF) = true := by decide
theorem test_sleep :
    nextIs (stepOf 0x0063 { at100 with nTO := false }) (fun t => t.pc == 0x101 && t.nTO && !t.nPD && t.sleeping) = true := by decide
theorem test_sleep_with_request_pending :
    nextIs (stepOf 0x0063 { at100 with nTO := false, intcon := 0x12 }) (fun t => t.pc == 0x101 && !t.nTO && t.nPD && !t.sleeping) = true := by decide
theorem test_addfsr_wraps :
    nextIs (stepOf 0x3160 { at100 with fsr1 := 0x0010 }) (fun t => t.pc == 0x101 && t.fsr1 == 0xFFF0 && t.fsr0 == 0) = true := by decide
theorem test_moviw_preinc :
    nextIs (stepOf 0x0010 { withByte 0x20 0x33 with fsr0 := 0x001F }) (fun t => t.pc == 0x101 && t.w == 0x33 && t.fsr0 == 0x20 && flags t == (false, false, false)) = true := by decide
theorem test_moviw_postdec_linear :
    nextIs (stepOf 0x0017 { withByte 0xA0 0x80 with fsr1 := 0x2050, z := true }) (fun t => t.pc == 0x101 && t.w == 0x80 && t.fsr1 == 0x204F && flags t == (false, false, false)) = true := by decide
theorem test_moviw_indexed :
    nextIs (stepOf 0x3F60 { withByte 0x20 0x00 with fsr1 := 0x0040 }) (fun t => t.pc == 0x101 && t.w == 0 && t.fsr1 == 0x40 && flags t == (false, false, true)) = true := by decide
theorem test_movwi_predec :
    nextIs (stepOf 0x001D { at100 with w := 0x17, bsr := 4, fsr1 := 0x0071 }) (fun t => t.pc == 0x101 && t.ram == [(0x70, 0x17)] && t.fsr1 == 0x70) = true := by decide
theorem test_movwi_program_memory :
    nextIs (stepOf 0x001A { at100 with w := 0x44, fsr0 := 0xFFFF }) (fun t => t.pc == 0x101 && t.ram == [] && t.fsr0 == 0) = true := by decide
theorem test_movwi_indexed :
    nextIs (stepOf 0x3F80 { at100 with w := 0x21, fsr0 := 0x0004 }) (fun t => t.pc == 0x101 && t.fsr0 == 0x21) = true := by decide

/-! ## Core registers, PCL and the refusals (sections 2.2, 2.3 and 2.9) -/

theorem test_movf_pcl_reads_next :
    nextIs (stepOf 0x0802 { at100 with pc := 0x01FF }) (fun t => t.w == 0 && t.pc == 0x200 && t.z) = true := by decide
theorem test_computed_jump :
    nextIs (stepOf 0x0782 { at100 with pc := 0x01FC, w := 7, pclath := 1 }) (fun t => t.pc == 0x104 && flags t == (true, true, false)) = true := by decide
theorem test_refusals :
    refusedWith (stepOf 0x0B82 at100) .skipWritesPcl = true ∧ refusedWith (stepOf 0x080C at100) (.peripheralSfr 0x00C) = true ∧
    refusedWith (stepOf 0x0800 { at100 with fsr0 := 0x1000 }) (.reservedFsrAddress 0x1000) = true ∧
    refusedWith (stepOf 0x0012 { at100 with fsr0 := 0x0004 }) .modifiesOwnFsr = true ∧
    refusedWith (stepOf 0x0012 { at100 with fsr0 := 0x9000 }) (.readOutsideProgram 0x1000) = true ∧
    refusedWith (stepOf 0x0000 { at100 with pc := 0x1000 }) (.fetchOutsideProgram 0x1000) = true ∧
    refusedWith (stepOf 0x0040 at100) (.reservedOpcode 0x0040) = true := by decide
/-- R66: every address of bank 31 below offset 0x70 that names no register is refused, and one that SfrModel names is storage. -/
theorem test_bank_31_is_refused :
    refusedWith (stepOf 0x0820 { at100 with bsr := 31 }) (.peripheralSfr 0xFA0) = true ∧
    refusedWith (stepOf 0x00E3 { at100 with bsr := 31 }) (.peripheralSfr 0xFE3) = true ∧
    nextIs (stepOf 0x0091 { at100 with w := 0x5A, bsr := 3, cfg := { params1508 with sfrModel := [0x191] } })
      (fun t => t.ram == [(0x191, 0x5A)]) = true ∧
    refusedWith (stepOf 0x0091 { at100 with bsr := 8, cfg := { params1508 with nbanks := 8 } }) (.bankOutsideMemory 0x411) = true := by
  decide
/-- R190, section 2.7: the refusal of shadow registers that hold no value; a software write of all of them or an interrupt entry ends it. -/
theorem test_retfie_with_unknown_shadows :
    let s : State := { at100 with stack := [0x0123] }
    refusedWith (stepOf 0x0009 s) .unknownShadowRegisters = true ∧
    nextIs (stepOf 0x0009 { s with unwrittenShadows := [] }) (fun t => t.pc == 0x123) = true ∧
    nextIs (stepOf 0x00E5 { s with bsr := 31, w := 0x5A, unwrittenShadows := [.wreg] })
      (fun t => t.wShad == 0x5A && t.unwrittenShadows == []) = true := by decide
/-- Cycles of a taken skip, of a computed jump and of a read of program memory (R279). -/
theorem test_cycles :
    cycles (.decfsz 0x20 .f) (withByte 0x20 1) = 2 ∧ cycles (.movwf 0x02) at100 = 2 ∧
    cycles (.moviwIndexed .fsr0 0) { at100 with fsr0 := 0x8200 } = 2 ∧ cycles (.bra 0) at100 = 2 := by decide

/-! ## The environment (section 2.10) -/

/-- A core with an interrupt request pending, and the environment's choice for the next machine step. -/
def pending (e : EnvChoice) : State := { at100 with gie := true, intcon := 0x12, w := 0x55, env := [e] }

/-- Entry runs before the instruction at the vector, here an erased word: MOVWI -1[FSR1], which stores W (R216). -/
theorem test_interrupt_entry :
    nextIs (step { pending { intEntry := true } with fsr1 := 0x0071 })
      (fun t => t.pc == 5 && !t.gie && t.stack == [0x100] && t.wShad == 0x55 && t.intcon == 0x12 && t.ram == [(0x70, 0x55)]) =
        true := by decide
theorem test_mclr_while_asleep :
    nextIs (step { at100 with sleeping := true, nPD := false, env := [{ extReset := some .mclr }] })
      (fun t => t.pc == 0 && t.nTO && !t.nPD && !t.pcon.nRMCLR && !t.sleeping) = true := by decide
/-- A reset by another table and another vector (R6 `ResetValues`, `RESET_VECTOR`). -/
theorem test_reset_by_the_configured_table :
    let table : ResetValues := { resetValuesDefault with others := { otherResetsColumn with w := some 0x77, bsr := none } }
    nextIs (stepOf 0x0001 { at100 with bsr := 3, cfg := { params1508 with resetVector := 0x0200, resetValues := table } })
      (fun t => t.pc == 0x200 && t.w == 0x77 && t.bsr == 3 && !t.pcon.nRI) = true := by decide
theorem test_watchdog_reset :
    nextIs (step { at100 with cfg := { params1508 with wdtEnabled := true }, wdt := 1, env := [{ wdtTimeout := true }] })
      (fun t => t.pc == 0 && !t.nTO && t.nPD && !t.pcon.nRWDT) = true := by decide

/-! ## Witnesses: a state and operands that meet the hypotheses of each statement, clause by clause at boundary values -/

theorem witness_DecodeOfEncodeGivesTheInstruction :
    (Instr.bra (-256)).wellFormed = true ∧ (Instr.bra 255).wellFormed = true ∧ (Instr.addfsr .fsr1 (-32)).wellFormed = true ∧
    (Instr.moviwIndexed .fsr0 31).wellFormed = true ∧ (Instr.movwiIndexed .fsr1 (-32)).wellFormed = true ∧
    (Instr.addwf 0x7F .f).wellFormed = true := by decide

theorem witness_EncodeOfDecodeGivesTheWord :
    decode 0x0000#14 = .ok .nop ∧ decode 0x3FFF#14 = .ok (.movwiIndexed .fsr1 (-1)) ∧ decode 0x0100#14 = .ok (.clrw 0) ∧
    decode 0x0103#14 = .ok (.clrw 3) := by decide

theorem witness_DecodeFollowsTheUniqueRow :
    (∃ r ∈ opTable, 0x07A0#14 &&& r.mask = r.value) ∧ ∀ r ∈ opTable, 0x0002#14 &&& r.mask ≠ r.value := by decide

/-- The ends of the five ranges are in, their neighbours out; and a step reaches a reserved word. -/
theorem witness_ReservedWordsAreExactlyThese192AndRefused :
    ([0x0002, 0x0007, 0x000C, 0x000F, 0x0040, 0x0061, 0x0068, 0x007F, 0x0104, 0x017F].all isReservedWord = true ∧
      ([0x0001, 0x0008, 0x000B, 0x0010, 0x003F, 0x0062, 0x0067, 0x0080, 0x0103, 0x0180].any isReservedWord = false)) ∧
    ∃ t, envPhase { at100 with prog := [(0x100, 0x0104#14)] } = .run t ∧ t.pc.toNat < t.cfg.pmWords ∧
      t.prog.read t.pc.toNat = 0x0104#14 :=
  ⟨by decide, _, rfl, by decide, by decide⟩

/-- The reach of BRA label from 0x0100 at both ends and just outside. -/
theorem witness_SyntaxLinesStandForTheirInstructions :
    ((Instr.bra (-256)).wellFormed = true ∧ ∀ x, Instr.bra (-256) ≠ .clrw x) ∧
    ((0x0001#15).toNat : Int) - (at100.pc.toNat + 1) = -256 ∧ ((0x0200#15).toNat : Int) - (at100.pc.toNat + 1) = 255 ∧
    ((0x0000#15).toNat : Int) - (at100.pc.toNat + 1) < -256 ∧ 255 < ((0x0201#15).toNat : Int) - (at100.pc.toNat + 1) ∧
    inSigned9 (-255 - 1) = true ∧ inSigned9 (256 - 1) = true :=
  ⟨⟨by decide, nofun⟩, by decide⟩

theorem witness_StepRunsTheDecodedInstruction :
    (∃ t, envPhase { at100 with prog := [(0x100, 0x0000#14)] } = .run t ∧ t.pc.toNat < t.cfg.pmWords ∧
      decode (t.prog.read t.pc.toNat) = .ok .nop) ∧
    (∃ r, envPhase { at100 with sleeping := true } = .ends r) ∧
    (at100.env = [] ∧ at100.sleeping = false ∧ (at100.gie = false ∨ at100.intReq = false) ∧
      at100.pc.toNat < at100.cfg.pmWords ∧ decode (at100.prog.read at100.pc.toNat) = .ok (.movwiIndexed .fsr1 (-1))) :=
  ⟨⟨_, rfl, by decide, by decide⟩, ⟨_, rfl⟩, by decide⟩

theorem witness_ProgramMemoryIsReadOnlyAndBounded :
    ((0x0FFF#15).toNat < at100.cfg.pmWords ∧ at100.cfg.pmWords ≤ (0x1000#15).toNat) ∧
    (∃ t, envPhase { at100 with pc := 0x1000 } = .run t ∧ t.cfg.pmWords ≤ t.pc.toNat) ∧
    ∃ t, step { at100 with w := 0x44, fsr1 := 0x8001 } = .next t :=
  ⟨by decide, ⟨_, rfl, by decide⟩, ⟨_, rfl⟩⟩

/-- The default configuration has the spec's data map and reset. -/
theorem witness_spec_map_and_reset : hasSpecMap at100.cfg ∧ hasSpecReset at100.cfg ∧ at100.cfg.nbanks = 32 :=
  ⟨⟨rfl, rfl⟩, ⟨rfl, rfl⟩, rfl⟩

theorem witness_FileOperandAccess :
    hasSpecMap at100.cfg ∧ at100.advance.cfg = at100.cfg ∧ (0x02 : FileAddr) ≠ 0x00 ∧ (0x02 : FileAddr) ≠ 0x01 :=
  ⟨⟨rfl, rfl⟩, by decide⟩

/-- The ends of every region of FSR space. -/
theorem witness_IndirectReadByRegion :
    (0x8000 ≤ (0x8000#16).toNat ∧ ((0x8000#16).setWidth 15).toNat < at100.cfg.pmWords) ∧
    (0x8000 ≤ (0x8FFF#16).toNat ∧ ((0x8FFF#16).setWidth 15).toNat < at100.cfg.pmWords) ∧
    (0x8000 ≤ (0x9000#16).toNat ∧ at100.cfg.pmWords ≤ ((0x9000#16).setWidth 15).toNat) ∧
    (0x8000 ≤ (0xFFFF#16).toNat ∧ at100.cfg.pmWords ≤ ((0xFFFF#16).setWidth 15).toNat) ∧
    (0x2000 ≤ (0x2000#16).toNat ∧ (0x29AF#16).toNat ≤ 0x29AF) ∧
    (at100.cfg.coreRegMap = coreRegMapDefault ∧ at100.cfg.nbanks = 32 ∧ (0x0F81#16).toNat ≤ 0x0FFF ∧
      (0x0F81#16).toNat % 128 ≤ 0x01) ∧
    ((0x0FFF#16).toNat ≤ 0x0FFF ∧ 0x02 ≤ (0x0FFF#16).toNat % 128) ∧
    ((0x1000 ≤ (0x1000#16).toNat ∧ (0x1FFF#16).toNat ≤ 0x1FFF) ∧ 0x29B0 ≤ (0x29B0#16).toNat ∧ (0x7FFF#16).toNat ≤ 0x7FFF) := by
  decide

theorem witness_IndirectWriteByRegion :
    (0x8000 ≤ (0x8000#16).toNat ∧ 0x2000 ≤ (0x2000#16).toNat ∧ (0x29AF#16).toNat ≤ 0x29AF ∧ (0x0001#16).toNat % 128 ≤ 0x01 ∧
      0x02 ≤ (0x0002#16).toNat % 128 ∧ 0x1000 ≤ (0x1000#16).toNat ∧ 0x29B0 ≤ (0x7FFF#16).toNat) ∧
    let s : State := { at100 with fsr0 := 0x8000 }
    hasSpecMap s.cfg ∧ 0x8000 ≤ s.fsr0.toNat ∧ fread s 0x00 = .ok 0xFF := by
  unfold hasSpecMap
  decide

theorem witness_CoreRegistersOfEveryBank :
    hasSpecMap at100.cfg ∧ ({ at100 with bsr := 31 } : State).advance.cfg = at100.cfg := ⟨⟨rfl, rfl⟩, by decide⟩

theorem witness_StatusWritesByFlagList :
    hasSpecMap at100.cfg ∧ (0x003#12).toNat % 128 = 0x03 ∧ (0xF83#12).toNat % 128 = 0x03 := ⟨⟨rfl, rfl⟩, by decide⟩

theorem witness_PclReadsWritesAndComputedJump : hasSpecMap at100.cfg ∧ at100.advance.cfg = at100.cfg :=
  ⟨⟨rfl, rfl⟩, by decide⟩

theorem witness_SpecialRegistersReadAndWrite : at100.cfg.nbanks = 32 := rfl

/-- An empty stack, one entry, and a stack of 16 entries. -/
theorem witness_StackRegistersShowTheStack :
    at100.cfg.nbanks = 32 ∧ at100.stack = [] ∧ ((0x123 :: []).length ≤ 16) ∧ (0x7FFF#15 :: List.replicate 15 0x0001#15).length ≤ 16 := by decide

/-- The ends of the three ranges, and the ends of what lies between the named registers of bank 31. -/
theorem witness_UnmodelledRegistersAreRefused :
    at100.cfg.nbanks = 32 ∧
    ∀ a ∈ [0x00C#12, 0x01F#12, 0xF1F#12, 0xF20#12, 0xF2F#12, 0xF8C#12, 0xF9F#12, 0xFA0#12, 0xFE3#12, 0xFEC#12],
      isSfrAddress a ∧ a ∉ definedSfr ∧ a ∉ at100.cfg.sfrModel := by
  unfold isSfrAddress
  decide

/-- Banked RAM at both ends, common RAM at both ends, a register of SfrModel; two addresses of one cell, two of different cells. -/
theorem witness_RamHoldsWhatWasLastWritten :
    at100.cfg.nbanks = 32 ∧ (isRam at100 0x020 ∧ isRam at100 0x16F ∧ isRam at100 0x070 ∧ isRam at100 0xFFF) ∧
    (ramKey 0x07F = ramKey 0xFFF ∧ ramKey 0x020 ≠ ramKey 0x0A0) ∧
    isRam { at100 with cfg := { params1508 with sfrModel := [0x191] } } 0x191 := by
  refine ⟨rfl, ⟨?_, ?_, ?_, ?_⟩, by decide, ?_⟩ <;> unfold isRam isSfrAddress <;> decide

theorem witness_UnimplementedLocationsReadZero :
    at100.cfg.nbanks = 32 ∧
    ∀ a ∈ [0x1A0#12, 0xEEF#12, 0xF30#12, 0xF6F#12],
      0x20 ≤ a.toNat % 128 ∧ a.toNat % 128 ≤ 0x6F ∧ hasGpr at100.cfg a.toNat = false ∧ ¬isSfrAddress a := by
  unfold isSfrAddress
  decide

/-- A file operand that can be read and written, one that can be read and not written (TOSL), one that cannot be read. -/
theorem witness_FileOpRule :
    (fread (withByte 0x20 0xC2) 0x20 = .ok 0xC2 ∧
      ∃ t, fwrite (withByte 0x20 0xC2) { withByte 0x20 0xC2 with pc := 0x101 } 0x20 .allFlags 0xD9 = .ok t) ∧
    (let s : State := { at100 with bsr := 31, stack := [0x123] };
      fread s 0x6E = .ok 0x23 ∧ fwrite s { s with pc := 0x101 } 0x6E .someFlags 0x24 = .error .stackRegisterWrite) ∧
    fread at100 0x0C = .error (.peripheralSfr 0x00C) :=
  ⟨⟨by decide, _, rfl⟩, by decide, by decide⟩

theorem witness_AddwfAndAddwfc :
    ∃ t, exec (.addwf 0x20 .f) (withByte 0x20 0xC2) = .next t ∧ exec (.addwfc 0x20 .f) (withByte 0x20 0xC2) = .next t :=
  ⟨_, rfl, rfl⟩

/-- The incoming borrow at its boundary: 0xFF + 1 against 0. -/
theorem witness_SubwfAndSubwfb :
    (∃ t, exec (.subwf 0x20 .w) { withByte 0x20 0x00 with w := 0x01 } = .next t) ∧
    ∃ t, exec (.subwfb 0x20 .w) { withByte 0x20 0x00 with w := 0xFF } = .next t ∧ t.w = 0x00 ∧ t.z = true ∧ t.c = false :=
  ⟨⟨_, rfl⟩, _, rfl, by decide, by decide, by decide⟩

theorem witness_LogicalFileOperations :
    ∃ t u v x, exec (.andwf 0x20 .f) (withByte 0x20 0xFF) = .next t ∧ exec (.comf 0x20 .f) (withByte 0x20 0xFF) = .next u ∧
      exec (.iorwf 0x20 .w) (withByte 0x20 0xFF) = .next v ∧ exec (.xorwf 0x20 .w) (withByte 0x20 0xFF) = .next x :=
  ⟨_, _, _, _, rfl, rfl, rfl, rfl⟩

theorem witness_IncrementDecrementMoveFile :
    ∃ t u v, exec (.decf 0x20 .f) (withByte 0x20 0x00) = .next t ∧ exec (.incf 0x20 .f) (withByte 0x20 0xFF) = .next u ∧
      exec (.movf 0x20 .f) (withByte 0x20 0x00) = .next v :=
  ⟨_, _, _, rfl, rfl, rfl⟩

theorem witness_ShiftRotateAndSwap :
    ∃ t u v x y z, exec (.asrf 0x20 .f) (withByte 0x20 0x81) = .next t ∧ exec (.lslf 0x20 .f) (withByte 0x20 0x80) = .next u ∧
      exec (.lsrf 0x20 .f) (withByte 0x20 0x01) = .next v ∧ exec (.rlf 0x20 .f) (withByte 0x20 0x80) = .next x ∧
      exec (.rrf 0x20 .f) (withByte 0x20 0x01) = .next y ∧ exec (.swapf 0x20 .f) (withByte 0x20 0x01) = .next z :=
  ⟨_, _, _, _, _, _, rfl, rfl, rfl, rfl, rfl, rfl⟩

theorem witness_RotateRightUndoesRotateLeft : hasSpecMap ({ at100 with bsr := 31 } : State).cfg := ⟨rfl, rfl⟩

theorem witness_ClrfAndMovwf :
    (∃ t, fwrite at100 { at100 with pc := 0x101 } 0x7F .someFlags 0x00 = .ok t) ∧
    fwrite at100 { at100 with pc := 0x101 } 0x0C .noFlags 0x00 = .error (.peripheralSfr 0x00C) :=
  ⟨⟨_, rfl⟩, rfl⟩

/-- A result of 0, another result, and the destination PCL. -/
theorem witness_DecfszAndIncfsz :
    (fread (withByte 0x20 0x01) 0x20 = .ok 0x01 ∧ selectsPcl (withByte 0x20 0x01) 0x20 = false ∧
      ∃ t, fwrite (withByte 0x20 0x01) { withByte 0x20 0x01 with pc := 0x102 } 0x20 .noFlags 0x00 = .ok t) ∧
    (fread (withByte 0x20 0xFF) 0x20 = .ok 0xFF ∧
      ∃ t, fwrite (withByte 0x20 0xFF) { withByte 0x20 0xFF with pc := 0x101 } 0x20 .noFlags 0xFE = .ok t) ∧
    (fread at100 0x02 = .ok 0x01 ∧ selectsPcl at100 0x02 = true) :=
  ⟨⟨by decide, by decide, _, rfl⟩, ⟨by decide, _, rfl⟩, by decide⟩

theorem witness_BcfAndBsf :
    (∃ t u, exec (.bcf 0x20 7) (withByte 0x20 0x80) = .next t ∧ exec (.bsf 0x20 0) (withByte 0x20 0x80) = .next u) ∧
    fread at100 0x0C = .error (.peripheralSfr 0x00C) :=
  ⟨⟨_, _, rfl, rfl⟩, by decide⟩

theorem witness_BtfscAndBtfss :
    fread (withByte 0x20 0x80) 0x20 = .ok 0x80 ∧ fread at100 0x0C = .error (.peripheralSfr 0x00C) := by decide

theorem witness_BranchTargets : inSigned9 (-256) = true ∧ inSigned9 255 = true := by decide

theorem witness_ClrwdtNopOptionTris : ({ at100 with bsr := 1 } : State).bsr = 1 ∧ at100.cfg.nbanks = 32 := by decide

theorem witness_ResetInstruction : hasSpecReset at100.cfg := ⟨rfl, rfl⟩

/-- An empty stack and one with a single free slot. -/
theorem witness_CallsPushTheReturnAddress :
    at100.stack.length < at100.cfg.stackDepth ∧
    (List.replicate 15 0x0001#15).length < at100.cfg.stackDepth := by decide

theorem witness_ReturnsPopTheReturnAddress : ({ at100 with stack := [0x123] } : State).stack = 0x123 :: [] := by decide

/-- The restore where the configuration always has one, no restore, the restore of written shadow registers, and the refusal. -/
theorem witness_RetfieReturnsAndRestores :
    (let s : State := { at100 with stack := [0x123], cfg := { params1508 with unknownShadows := .useValue } };
      s.stack = 0x123 :: [] ∧ s.cfg.autoContext = true ∧ s.cfg.unknownShadows = .useValue) ∧
    (let s : State := { at100 with stack := [0x123], cfg := { params1508 with autoContext := false } };
      s.stack = 0x123 :: [] ∧ s.cfg.autoContext = false) ∧
    (let s : State := { at100 with stack := [0x123], unwrittenShadows := [] };
      s.stack = 0x123 :: [] ∧ s.cfg.autoContext = true ∧ s.unwrittenShadows = []) ∧
    let s : State := { at100 with stack := [0x123], unwrittenShadows := [.fsr1h] }
    s.stack = 0x123 :: [] ∧ s.cfg.autoContext = true ∧ s.cfg.unknownShadows = .refuse ∧ s.unwrittenShadows ≠ [] := by decide

/-- A state with a full stack. -/
def fullStack (guarded : Bool) : State :=
  { at100 with stack := List.replicate 16 0x0001, cfg := { params1508 with stvren := guarded } }

theorem witness_StackOverflowAndUnderflow :
    ((fullStack true).cfg.stackDepth ≤ (fullStack true).stack.length ∧ (fullStack true).cfg.stvren = true) ∧
    ((fullStack false).cfg.stackDepth ≤ (fullStack false).stack.length ∧ (fullStack false).cfg.stvren = false) ∧
    (at100.stack = [] ∧ at100.cfg.stvren = true) ∧
    let s : State := { at100 with cfg := { params1508 with stvren := false } }
    s.stack = [] ∧ s.cfg.stvren = false := by decide

theorem witness_ReturnUndoesCall : at100.stack.length < at100.cfg.stackDepth := by decide

theorem witness_SleepEntersSleepModeOrActsAsNop :
    at100.intReq = false ∧ ({ at100 with intcon := 0x12 } : State).intReq = true := by decide

theorem witness_AddfsrWraps : inSigned6 (-32) = true ∧ inSigned6 31 = true := by decide

/-- An address that can be read, one that is refused, and the pointer's own bytes at both ends. -/
theorem witness_MoviwWithModifier :
    hasSpecMap at100.cfg ∧
    (¬selfReference .fsr0 0x0020 ∧ indRead (withByte 0x20 0x33) 0x0020 = .ok 0x33) ∧
    (¬selfReference .fsr0 0x1000 ∧ indRead at100 0x1000 = .error (.reservedFsrAddress 0x1000)) ∧
    (selfReference .fsr0 0x0004 ∧ selfReference .fsr0 0x0F85 ∧ selfReference .fsr1 0x0006 ∧ selfReference .fsr1 0x0F87) ∧
    (¬selfReference .fsr0 0x0006 ∧ ¬selfReference .fsr1 0x0004) := by
  unfold selfReference hasSpecMap
  decide

theorem witness_IndexedMoves :
    (inSigned6 31 = true ∧ indRead (withByte 0x20 0x11) 0x0020 = .ok 0x11 ∧
      indRead at100 0x7FFF = .error (.reservedFsrAddress 0x7FFF)) ∧
    (indLoc at100.cfg 0x0020 ≠ .ok (.core .pcl) ∧ indLoc at100.cfg 0x0082 = .ok (.core .pcl)) ∧
    (∃ t, indWrite { at100 with pc := 0x101 } 0x0020 .noFlags 0x17 = .ok t) ∧
    indWrite { at100 with pc := 0x101 } 0x1000 .noFlags 0x17 = .error (.reservedFsrAddress 0x1000) :=
  ⟨by decide, by decide, ⟨_, rfl⟩, rfl⟩

theorem witness_MovwiWithModifier :
    hasSpecMap at100.cfg ∧
    (indLoc at100.cfg 0x0020 ≠ .ok (.core .pcl) ∧ indLoc at100.cfg 0x0002 = .ok (.core .pcl)) ∧
    (¬selfReference .fsr0 0x0020 ∧ ∃ t, indWrite { at100 with pc := 0x101 } 0x0020 .noFlags 0x17 = .ok t) ∧
    (¬selfReference .fsr0 0x29B0 ∧
      indWrite { at100 with pc := 0x101 } 0x29B0 .noFlags 0x17 = .error (.reservedFsrAddress 0x29B0)) ∧
    selfReference .fsr1 0x0007 :=
  ⟨⟨rfl, rfl⟩, by decide, ⟨by unfold selfReference; decide, _, rfl⟩, ⟨by unfold selfReference; decide, rfl⟩, by unfold selfReference; decide⟩

/-- 0x1300 - 0x0301, as the spec's program P2 does it, and the sum of the same bytes. -/
theorem witness_SixteenBitArithmetic :
    let s : State := { at100 with ram := [(0x20, 0x00), (0x21, 0x13)], w := 0x01 }
    fread s 0x20 = .ok 0x00 ∧ fread s 0x21 = .ok 0x13 ∧
    (∃ t u, exec (.subwf 0x20 .w) s = .next t ∧ exec (.subwfb 0x21 .w) { s with w := 0x03, c := false } = .next u ∧ t.c = false) ∧
    ∃ t u, exec (.addwf 0x20 .w) s = .next t ∧ exec (.addwfc 0x21 .w) { s with w := 0x03, c := false } = .next u ∧ t.c = false :=
  ⟨rfl, rfl, ⟨_, _, rfl, rfl, rfl⟩, _, _, rfl, rfl, rfl⟩

theorem witness_RamFrameOfEveryInstruction :
    (∃ t, exec (.movwf 0x20) at100 = .next t) ∧ storeTarget (.movwf 0x20) at100 ≠ some (.ram 0x21) ∧
    storeTarget (.movwf 0x20) at100 = some (.ram 0x20) := ⟨⟨_, rfl⟩, by decide, by decide⟩

theorem witness_WorkingRegisterFrame :
    (∃ t, exec (.movwf 0x20) at100 = .next t) ∧ writesW (.movwf 0x20) = false ∧
    storeTarget (.movwf 0x20) at100 ≠ some (.core .wreg) ∧ ¬RestoresContext (.movwf 0x20) at100 ∧
    resetsBySpec (.movwf 0x20) at100 :=
  ⟨⟨_, rfl⟩, rfl, by decide, (fun h => nomatch h.1), fun _ => rfl⟩

theorem witness_FlagFrame :
    (∃ t, exec (.movwf 0x20) at100 = .next t) ∧ storeTarget (.movwf 0x20) at100 ≠ some (.core .status) ∧
    ¬RestoresContext (.movwf 0x20) at100 ∧ affects (.movwf 0x20) = ⟨false, false, false⟩ ∧
    Instr.movwf 0x20 ≠ .clrwdt ∧ Instr.movwf 0x20 ≠ .sleep ∧ resetsBySpec (.movwf 0x20) at100 ∧ resetsBySpec .reset at100 :=
  ⟨⟨_, rfl⟩, by decide, (fun h => nomatch h.1), rfl, by decide, by decide, fun _ => rfl, fun _ => rfl⟩

theorem witness_AddressRegisterFrame :
    (∃ t, exec .nop at100 = .next t) ∧ ¬RestoresContext .nop at100 ∧ ¬RaisesReset .nop at100 ∧
    (∀ k, Instr.nop ≠ .movlp k) ∧ (∀ k, Instr.nop ≠ .movlb k) ∧ (∀ n k, Instr.nop ≠ .addfsr n k) ∧
    (∀ n mm, Instr.nop ≠ .moviwMode n mm ∧ Instr.nop ≠ .movwiMode n mm) ∧ storeTarget .nop at100 = none ∧
    resetsBySpec .nop at100 := by
  refine ⟨⟨_, rfl⟩, ?_, ?_, nofun, nofun, nofun, fun _ _ => ⟨nofun, nofun⟩, rfl, fun _ => rfl⟩
  · rintro ⟨h, _⟩
    cases h
  · simp [RaisesReset]

theorem witness_SpecialStateFrame :
    (∃ t, exec .nop at100 = .next t) ∧ ¬RaisesReset .nop at100 ∧ ¬UsesStack .nop ∧ storeTarget .nop at100 = none ∧
    Instr.nop ≠ .option ∧ Instr.nop ≠ .tris5 ∧ Instr.nop ≠ .tris6 ∧ Instr.nop ≠ .tris7 ∧ Instr.nop ≠ .retfie ∧
    Instr.nop ≠ .clrwdt ∧ Instr.nop ≠ .sleep ∧ resetsBySpec .nop at100 :=
  ⟨⟨_, rfl⟩, by simp [RaisesReset], by simp [UsesStack], rfl, by decide, by decide, by decide, by decide, by decide, by decide,
    by decide, fun _ => rfl⟩

/-- A state with listed RAM, a listed program word and a return address, and its step. -/
theorem witness_EveryStepKeepsTheInvariant :
    let s : State := { at100 with ram := [(0x20, 0x01), (0x70, 0x02)], prog := [(0x100, 0x0AA0#14)], stack := [0x123] }
    s.Inv ∧ ∃ t, step s = .next t := by
  refine ⟨⟨by decide, ?_, ?_, by decide, by decide⟩, _, rfl⟩
  · intro e he
    simp at he
    rcases he with rfl | rfl
    · exact Or.inr ⟨by decide, .inl (by decide)⟩
    · exact Or.inl ⟨by decide, by decide⟩
  · exact ⟨by decide, by decide⟩

theorem witness_DeviceResetByCause :
    (at100.cfg.resetValues = resetValuesDefault ∧ at100.cfg.resetVector = 0x0000) ∧ ResetKind.mclr ≠ .powerOn ∧ at100.sleeping = false ∧ ({ at100 with sleeping := true } : State).sleeping = true := by decide

/-- An entry with and without the context save, and one that fills the 16th slot. -/
theorem witness_InterruptEntrySavesAndVectors :
    let takes := fun s : State =>
      s.choice.extReset = none ∧ ¬timeoutComes s ∧ s.sleeping = false ∧ s.choice.intEntry = true ∧
        (afterInputs s).gie = true ∧ (afterInputs s).intReq = true ∧ s.stack.length < s.cfg.stackDepth
    takes (pending { intEntry := true }) ∧ (pending {}).cfg.autoContext = true ∧
    takes { pending { intEntry := true } with cfg := { params1508 with autoContext := false } } ∧
    takes { pending { intEntry := true } with stack := List.replicate 15 0x0001 } := by
  unfold timeoutComes
  decide

/-- Inputs set and inputs left, no entry possible, an entry put off without a bound, at the last step a bound of 3 allows (2), and
overdue at the bound (3). -/
theorem witness_NoInterruptEntryOutsideItsCondition :
    ((pending { setIocif := true, periph := some true }).choice.periph = some true ∧ (pending {}).choice.periph = none) ∧
    (¬timeoutComes at100 ∧ at100.choice.extReset = none ∧ at100.sleeping = false ∧ (afterInputs at100).gie = false) ∧
    (let s := pending {};
      s.choice.extReset = none ∧ ¬timeoutComes s ∧ s.sleeping = false ∧ (afterInputs s).gie = true ∧
        (afterInputs s).intReq = true ∧ s.choice.intEntry = false ∧ entryMayWait s) ∧
    (let s : State := { pending {} with cfg := { params1508 with intLatencyMax := some 3 }, intWait := 2 };
      s.choice.extReset = none ∧ ¬timeoutComes s ∧ s.sleeping = false ∧ (afterInputs s).gie = true ∧
        (afterInputs s).intReq = true ∧ s.choice.intEntry = false ∧ entryMayWait s) ∧
    let s : State := { pending {} with cfg := { params1508 with intLatencyMax := some 3 }, intWait := 3 }
    s.choice.extReset = none ∧ ¬timeoutComes s ∧ s.sleeping = false ∧ ¬entryMayWait s ∧
      s.stack.length < s.cfg.stackDepth ∧ (afterInputs s).gie = true ∧ (afterInputs s).intReq = true := by
  refine ⟨by decide, by unfold timeoutComes; decide, ⟨rfl, by unfold timeoutComes; decide, rfl, rfl, by decide, rfl, nofun⟩,
    ⟨rfl, by unfold timeoutComes; decide, rfl, rfl, by decide, rfl, ?_⟩,
    ⟨rfl, by unfold timeoutComes; decide, rfl, fun h => absurd (h 3 rfl) (by decide), by decide, rfl, by decide⟩⟩
  intro n hn
  cases hn
  decide

theorem witness_RetfieUndoesInterruptEntry :
    at100.cfg.autoContext = true ∧ (pending {}).gie = true ∧ ∃ t, interruptEntry (pending {}) = .ok t :=
  ⟨rfl, rfl, _, rfl⟩

theorem witness_ResetsComeFirst :
    ({ at100 with env := [{ extReset := some .brownOut }] } : State).choice.extReset = some .brownOut ∧
    let s : State := { at100 with cfg := { params1508 with wdtEnabled := true }, wdt := 1, env := [{ wdtTimeout := true }] }
    s.choice.extReset = none ∧ timeoutComes s ∧ s.sleeping = false := by
  unfold timeoutComes
  decide

/-- The clauses of `WakesTo` one by one: no entry possible, the entry put off (with no bound, and at the last step of a bound), taken,
overdue, and on a full stack. -/
def wakeClauses (s t : State) (clause : Nat) : Bool :=
  match clause with
  | 0 => !t.gie || !t.intReq
  | 1 => t.gie && t.intReq && !s.choice.intEntry && s.cfg.intLatencyMax == none
  | 2 => t.gie && t.intReq && !s.choice.intEntry && s.cfg.intLatencyMax == some (s.intWait + 1)
  | 3 => t.gie && t.intReq && s.choice.intEntry && decide (s.stack.length < s.cfg.stackDepth)
  | 4 => t.gie && t.intReq && s.cfg.intLatencyMax == some s.intWait && decide (s.stack.length < s.cfg.stackDepth)
  | _ => t.gie && t.intReq && s.choice.intEntry && decide (s.cfg.stackDepth ≤ s.stack.length)

/-- A time-out comes to a sleeping core, and the clause applies. -/
def timeoutWakes (s : State) (clause : Nat) : Prop :=
  s.choice.extReset = none ∧ timeoutComes s ∧ s.sleeping = true ∧
    wakeClauses s { afterInputs s with nTO := false, sleeping := false } clause = true

/-- A request wakes a sleeping core, and the clause applies. -/
def requestWakes (s : State) (clause : Nat) : Prop :=
  s.choice.extReset = none ∧ ¬timeoutComes s ∧ s.sleeping = true ∧ s.choice.wake = true ∧ (afterInputs s).intReq = true ∧
    wakeClauses s { afterInputs s with sleeping := false } clause = true

/-- Clause 2 is a wait that may go on, clause 4 one that may not. -/
theorem entryMayWait_at_the_bound (s : State) :
    (s.cfg.intLatencyMax = some (s.intWait + 1) → entryMayWait s) ∧ (s.cfg.intLatencyMax = some s.intWait → ¬entryMayWait s) ∧
    (s.cfg.intLatencyMax = none → entryMayWait s) := by
  refine ⟨fun h n hn => ?_, fun h w => absurd (w _ h) (Nat.lt_irrefl _), fun h n hn => ?_⟩
  · rw [h] at hn
    cases hn
    exact Nat.lt_succ_self _
  · rw [h] at hn
    cases hn

/-- A sleeping core with INTF requested: GIE, the environment's choice, the configuration and the stack. -/
def asleep (gie : Bool) (e : EnvChoice) (cfg : Params) (stack : List ProgAddr) : State :=
  { at100 with
    sleeping := true, nPD := false, gie := gie, intcon := 0x12, wdtPre := 1, env := [e], cfg := cfg, stack := stack }

/-- A full stack. -/
def sixteen : List ProgAddr := List.replicate 16 0x0001

/-- The default configuration with the watchdog enabled. -/
def guarded : Params := { params1508 with wdtEnabled := true }

theorem witness_WatchdogWakesAndIsSilentWhenDisabled :
    (timeoutWakes (asleep false { wdtTimeout := true } guarded []) 0 ∧
      timeoutWakes (asleep true { wdtTimeout := true } guarded []) 1 ∧
      timeoutWakes (asleep true { wdtTimeout := true } { guarded with intLatencyMax := some 1 } []) 2 ∧
      timeoutWakes (asleep true { wdtTimeout := true, intEntry := true } guarded []) 3 ∧
      timeoutWakes (asleep true { wdtTimeout := true } { guarded with intLatencyMax := some 0 } []) 4 ∧
      timeoutWakes (asleep true { wdtTimeout := true, intEntry := true } guarded sixteen) 5 ∧
      timeoutWakes (asleep true { wdtTimeout := true, intEntry := true } { guarded with stvren := false } sixteen) 5) ∧
    let s : State := { at100 with wdt := 1, env := [{ wdtTimeout := true }] }
    s.env = { wdtTimeout := true } :: [] ∧ ¬timeoutComes s := by
  unfold timeoutWakes timeoutComes
  decide

/-- No wake-up, a request without the environment's wake-up, and the clauses of a wake-up. -/
theorem witness_SleepKeepsStateUntilWokenByARequest :
    (let s : State := { at100 with sleeping := true };
      s.choice.extReset = none ∧ ¬timeoutComes s ∧ s.sleeping = true ∧ s.choice.wake = false ∧ (afterInputs s).intReq = false) ∧
    (let s := asleep true {} params1508 [];
      s.choice.extReset = none ∧ ¬timeoutComes s ∧ s.sleeping = true ∧ s.choice.wake = false) ∧
    requestWakes (asleep false { wake := true } params1508 []) 0 ∧ requestWakes (asleep true { wake := true } params1508 []) 1 ∧
    requestWakes (asleep true { wake := true } { params1508 with intLatencyMax := some 1 } []) 2 ∧
    requestWakes (asleep true { wake := true, intEntry := true } params1508 []) 3 ∧
    requestWakes (asleep true { wake := true } { params1508 with intLatencyMax := some 0 } []) 4 ∧
    requestWakes (asleep true { wake := true, intEntry := true } params1508 sixteen) 5 ∧
    requestWakes (asleep true { wake := true, intEntry := true } { params1508 with stvren := false } sixteen) 5 := by
  refine ⟨?_, ?_, ?_, ?_, ?_, ?_, ?_, ?_, ?_⟩
  · unfold timeoutComes
    decide
  · unfold timeoutComes
    decide
  all_goals
    unfold requestWakes timeoutComes
    decide

end Sys2Proof.Tests
end

section
/-! SUPPORT. Special function registers and RAM by data address (R62, R65 to R69), and the two statements about them. -/

namespace Sys2Proof.Machine

/-- With NBANKS at its default there is every bank that 12 address bits can name (R61). -/
theorem bank_lt_of_nbanks {c : Params} (h : c.nbanks = 32) (a : DataAddr) : a.toNat / 128 < c.nbanks := by
  have ha := a.isLt
  omega

/-- The addresses of the modelled registers are those that R66 defines. -/
theorem sfrMap_addresses : sfrMap.map Prod.fst = definedSfr := rfl

section
variable {c : Params} {a : DataAddr}

/-- An address that R66 does not define is not in the map of modelled registers. -/
theorem sfrMap_lookup_eq_none (h : a ∉ definedSfr) : sfrMap.lookup a = none := by
  rw [List.lookup_eq_none_iff]
  intro p hp
  refine bne_iff_ne.2 fun hap => h ?_
  rw [hap, ← sfrMap_addresses]
  exact List.mem_map_of_mem hp

/-- A register that neither R66 nor SfrModel gives a meaning is refused. -/
theorem sfrLoc_unmodelled (h : a ∉ definedSfr) (hm : a ∉ c.sfrModel) : sfrLoc c a = .error (.peripheralSfr a) := by
  unfold sfrLoc
  rw [sfrMap_lookup_eq_none h]
  exact if_neg (by simpa using hm)

/-- A register to which SfrModel alone gives a meaning is a byte of storage (assumption log 16). -/
theorem sfrLoc_storage (h : a ∉ definedSfr) (hm : a ∈ c.sfrModel) : sfrLoc c a = .ok (.ram a.toNat) := by
  unfold sfrLoc
  rw [sfrMap_lookup_eq_none h]
  exact if_pos (by simpa using hm)

/-- A special function register stands between the core registers and common RAM of its bank (R62). -/
theorem isSfrAddress_offset (h : isSfrAddress a) : 12 ≤ a.toNat % 128 ∧ a.toNat % 128 < 0x70 := by
  unfold isSfrAddress at h
  omega

/-- Between the core registers and common RAM, the window of the dispatch is the set of special function register addresses. -/
theorem inSfrWindow_iff (h : 12 ≤ a.toNat % 128) (h' : a.toNat % 128 < 0x70) :
    inSfrWindow (a.toNat / 128) (a.toNat % 128) = true ↔ isSfrAddress a := by
  have ha := a.isLt
  simp only [inSfrWindow, isSfrAddress, Bool.or_eq_true, Bool.and_eq_true, decide_eq_true_eq, beq_iff_eq]
  omega

/-- The dispatch of a special function register address (R62, R66). -/
theorem dataLoc_sfr (hb : a.toNat / 128 < c.nbanks) (h : isSfrAddress a) : dataLoc c a = sfrLoc c a := by
  obtain ⟨hlo, hhi⟩ := isSfrAddress_offset h
  rw [dataLoc_banked hb hlo hhi, if_pos ((inSfrWindow_iff hlo hhi).2 h)]

/-- The dispatch of a banked general purpose RAM address (R62, R68). -/
theorem dataLoc_gpr (hb : a.toNat / 128 < c.nbanks) (hlo : 12 ≤ a.toNat % 128) (hhi : a.toNat % 128 < 0x70)
    (hg : hasGpr c a.toNat = true) (hs : ¬isSfrAddress a) : dataLoc c a = .ok (.ram a.toNat) := by
  rw [dataLoc_banked hb hlo hhi, if_neg (mt (inSfrWindow_iff hlo hhi).1 hs), if_pos hg]

end

section
variable {s t : State} {a : DataAddr} {key : Nat}

/-- Every RAM address selects its cell (R48, R68, R69). -/
theorem dataLoc_of_isRam (hb : a.toNat / 128 < s.cfg.nbanks) (h : isRam s a) : dataLoc s.cfg a = .ok (.ram (ramKey a)) := by
  unfold ramKey
  by_cases hc : 0x70 ≤ a.toNat % 128
  · rw [if_pos hc, dataLoc_common hb hc]
  · rw [if_neg hc]
    rcases h with (hcommon | ⟨hlo, hgpr, hsfr⟩) | ⟨hsfr, hdef, hmodel⟩
    · exact absurd hcommon hc
    · exact dataLoc_gpr hb (by omega) (by omega) hgpr hsfr
    · rw [dataLoc_sfr hb hsfr, sfrLoc_storage hdef hmodel]

/-- Reading an address that selects a RAM byte. -/
theorem memRead_ram (h : dataLoc s.cfg a = .ok (.ram key)) : memRead s a = .ok (s.ramByte key) := by
  unfold memRead
  rw [h]
  rfl

/-- Writing an address that selects a RAM byte. -/
theorem memWrite_ram (h : dataLoc s.cfg a = .ok (.ram key)) (k : FlagKind) (v : Byte) :
    memWrite s a k v = .ok { s with ram := s.ram.write key v } := by
  unfold memWrite
  rw [h]
  rfl

/-- Reading an address that selects nothing. -/
theorem memRead_error {e : Refusal} (h : dataLoc s.cfg a = .error e) : memRead s a = .error e := by
  unfold memRead
  rw [h]

/-- Writing an address that selects nothing. -/
theorem memWrite_error {e : Refusal} (h : dataLoc s.cfg a = .error e) (k : FlagKind) (v : Byte) :
    memWrite s a k v = .error e := by
  unfold memWrite
  rw [h]

/-- A RAM byte after a write to its own cell (R48). -/
theorem ramByte_write_same (s : State) (key : Nat) (v : Byte) :
    State.ramByte { s with ram := s.ram.write key v } key = v := by
  simp [State.ramByte]

/-- A RAM byte after a write to another cell: written or free, it is what it was (R48). -/
theorem ramByte_write_other (s : State) {key other : Nat} (v : Byte) (h : other ≠ key) :
    State.ramByte { s with ram := s.ram.write key v } other = s.ramByte other := by
  simp [State.ramByte, Memory.read_write_other s.ram key other v h]

end

/-- Settles O17: the address is dispatched as a special function register, and neither R66 nor SfrModel gives it a meaning. -/
theorem unmodelledRegistersAreRefused : Obligations.UnmodelledRegistersAreRefused := by
  intro s a k v hn hsfr hdef hmodel
  have hloc : dataLoc s.cfg a = .error (.peripheralSfr a) := by
    rw [dataLoc_sfr (bank_lt_of_nbanks hn a) hsfr, sfrLoc_unmodelled hdef hmodel]
  exact ⟨memRead_error hloc, memWrite_error hloc k v⟩

/-- Settles O18: both addresses are dispatched to their cells, so that reading after writing is reading after writing of RAM. -/
theorem ramHoldsWhatWasLastWritten : Obligations.RamHoldsWhatWasLastWritten := by
  intro s a b k v hn ha hb
  have hla := dataLoc_of_isRam (bank_lt_of_nbanks hn a) ha
  have hlb := dataLoc_of_isRam (bank_lt_of_nbanks hn b) hb
  have hread : ∀ m, memRead { s with ram := m } b = .ok (State.ramByte { s with ram := m } (ramKey b)) :=
    fun _ => memRead_ram hlb
  refine ⟨_, memWrite_ram hla k v, rfl, fun hsame => ?_, fun hother => ?_⟩
  · rw [hread, hsame, ramByte_write_same]
  · rw [hread, memRead_ram hlb, ramByte_write_other s v hother]

end Sys2Proof.Machine
end

section
/-! SUPPORT. The device reset by the table of R51: the column of each kind, the entries of each cause, and the statements about resets. -/

namespace Sys2Proof.Machine

section
variable {s : State}

/-- By the spec's table a power-on writes its column over a state that has forgotten everything (R51, R261). -/
theorem deviceReset_powerOn (h : s.cfg.resetValues = resetValuesDefault) :
    deviceReset .powerOn s = s.forgetAll.resetTo powerOnColumn resetValuesDefault.causePowerOn := by
  unfold deviceReset
  rw [if_pos rfl]
  simp only [State.causeEntries, h]
  rfl

/-- By the spec's table, what every reset writes (R51, R261). -/
theorem deviceReset_writes (k : ResetKind) (h : hasSpecReset s.cfg) :
    let t := deviceReset k s
    t.stack = [] ∧ t.wdt = 0 ∧ t.wdtPre = 0 ∧ t.sleeping = false ∧ t.gie = false ∧ t.intcon = 0 ∧ t.bsr = 0 ∧
      t.pclath = 0 ∧ t.optionReg = 0xFF ∧ t.trisA = 0xFF ∧ t.trisB = 0xFF ∧ t.trisC = 0xFF ∧ t.pc = 0x0000 := by
  obtain ⟨htable, hvector⟩ := h
  by_cases hk : k = .powerOn
  · subst hk
    rw [deviceReset_powerOn htable]
    simp [powerOnColumn, hvector]
  · rw [deviceReset_others k s hk htable]
    simp [hvector]

/-- By the spec's table, what a power-on gives beside what every reset writes (R51); nBOR has no value. -/
theorem deviceReset_powerOn_values (h : s.cfg.resetValues = resetValuesDefault) :
    let t := deviceReset .powerOn s
    t.nTO = true ∧ t.nPD = true ∧ t.w = 0 ∧ t.c = false ∧ t.dc = false ∧ t.z = false ∧ t.fsr0 = 0 ∧ t.fsr1 = 0 ∧
      t.ram = [] ∧ t.unwrittenShadows = allShadows ∧ ∃ b, t.pcon = ⟨false, false, true, true, true, false, b⟩ := by
  rw [deviceReset_powerOn h]
  refine ⟨rfl, rfl, rfl, rfl, rfl, rfl, rfl, rfl, rfl, rfl, s.forgetAll.pcon.nBOR, rfl⟩

/-- By the spec's table, what every other reset keeps (R51, R261). -/
theorem deviceReset_keeps {k : ResetKind} (hk : k ≠ .powerOn) (h : s.cfg.resetValues = resetValuesDefault) :
    let t := deviceReset k s
    t.w = s.w ∧ t.c = s.c ∧ t.dc = s.dc ∧ t.z = s.z ∧ t.fsr0 = s.fsr0 ∧ t.fsr1 = s.fsr1 ∧ t.ram = s.ram ∧
      t.wShad = s.wShad ∧ t.statusShad = s.statusShad ∧ t.bsrShad = s.bsrShad ∧ t.pclathShad = s.pclathShad ∧
      t.fsr0Shad = s.fsr0Shad ∧ t.fsr1Shad = s.fsr1Shad ∧ t.unwrittenShadows = s.unwrittenShadows := by
  rw [deviceReset_others k s hk h]
  simp

/-- By the spec's table, nTO, nPD and PCON after a reset that is no power-on are decided by the entries of its cause (R51 `q`). -/
theorem deviceReset_by_cause (k : ResetKind) (hk : k ≠ .powerOn) (h : s.cfg.resetValues = resetValuesDefault)
    {e : CauseEntries} (he : s.causeEntries k = e) :
    (deviceReset k s).pcon = CauseEntries.pcon e s.pcon ∧ (deviceReset k s).nTO = e.nTO.getD s.nTO ∧
      (deviceReset k s).nPD = e.nPD.getD s.nPD := by
  subst he
  rw [deviceReset_others k s hk h]
  exact ⟨rfl, rfl, rfl⟩

end

/-- The configuration of the reset state holds the defaults of R6 for the data map and the resets. -/
theorem params1508_spec : hasSpecMap params1508 ∧ hasSpecReset params1508 := ⟨⟨rfl, rfl⟩, ⟨rfl, rfl⟩⟩

/-- Settles O54: what all resets write, the two columns of the table, and then cause by cause the entries of R51's notes. -/
theorem deviceResetByCause : Obligations.DeviceResetByCause := by
  refine ⟨fun k s => ⟨deviceReset_pc k s, deviceReset_ram k s⟩, fun k s h => ?_⟩
  have htable : s.cfg.resetValues = resetValuesDefault := h.1
  refine ⟨deviceReset_writes k h, ?powerOn, fun hk => deviceReset_keeps hk htable, ?brownOut, ?mclr, ?watchdog,
    ?resetInstruction, ?stackOverflow, ?stackUnderflow⟩
  case powerOn =>
    rintro rfl
    exact deviceReset_powerOn_values htable
  case brownOut =>
    rintro rfl
    obtain ⟨hpcon, hto, hpd⟩ := deviceReset_by_cause .brownOut (by decide) htable
      (congrArg ResetValues.causeBrownOut htable)
    exact ⟨hto, hpd, hpcon⟩
  case mclr =>
    rintro rfl
    have hentries : s.causeEntries .mclr =
        if s.sleeping then resetValuesDefault.causeMclrAsleep else resetValuesDefault.causeMclrAwake := by
      simp only [State.causeEntries, htable]
    obtain ⟨hpcon, hto, hpd⟩ := deviceReset_by_cause .mclr (by decide) htable hentries
    refine ⟨?_, fun hs => ?_, fun hs => ?_⟩
    · rw [hpcon]
      split <;> rfl
    · rw [hto, hpd, hs]
      exact ⟨rfl, rfl⟩
    · rw [hto, hpd, hs]
      exact ⟨rfl, rfl⟩
  case watchdog =>
    rintro rfl
    exact deviceReset_by_cause .watchdog (by decide) htable (congrArg ResetValues.causeWatchdog htable)
  case resetInstruction =>
    rintro rfl
    exact deviceReset_by_cause .resetInstruction (by decide) htable (congrArg ResetValues.causeResetInstruction htable)
  case stackOverflow =>
    rintro rfl
    exact deviceReset_by_cause .stackOverflow (by decide) htable (congrArg ResetValues.causeStackOverflow htable)
  case stackUnderflow =>
    rintro rfl
    exact deviceReset_by_cause .stackUnderflow (by decide) htable (congrArg ResetValues.causeStackUnderflow htable)

/-- RESET is the device reset of its cause (R199). -/
theorem exec_reset (s : State) : exec .reset s = .next (deviceReset .resetInstruction s) := rfl

/-- Settles O39: the reset is no power-on, so the other column is written, and its cause clears nRI alone. -/
theorem resetInstruction : Obligations.ResetInstruction := by
  refine ⟨by decide, fun s => ⟨rfl, exec_reset s, fun h => ?_⟩⟩
  obtain ⟨htable, hvector⟩ := h
  have hentries : s.causeEntries .resetInstruction = resetValuesDefault.causeResetInstruction :=
    congrArg ResetValues.causeResetInstruction htable
  rw [exec_reset, deviceReset_intWait, deviceReset_others _ s (by decide) htable, hentries, hvector]
  rfl

/-- Settles O53: the state is what a power-on by the table leaves, but for the values that the model chose where the table has none. -/
theorem powerOnValuesOfTheResetState : Obligations.PowerOnValuesOfTheResetState := by
  have hreset := reset_follows_the_table State.reset rfl rfl rfl rfl rfl
  obtain ⟨hmap, hspec⟩ := params1508_spec
  obtain ⟨hstack, hwdt, hwdtPre, hsleeping, hgie, hintcon, hbsr, hpclath, hoption, htrisA, htrisB, htrisC, hpc⟩ :=
    deviceReset_writes (s := State.reset) .powerOn hspec
  obtain ⟨hto, hpd, hw, hc, hdc, hz, hfsr0, hfsr1, -, -, b, hpcon⟩ :=
    deviceReset_powerOn_values (s := State.reset) hspec.1
  unfold Obligations.PowerOnValuesOfTheResetState
  rw [hreset]
  exact ⟨hpc, hw, hc, hdc, hz, hto, hpd, hfsr0, hfsr1, hbsr, hpclath, hgie, hintcon, congrArg Pcon.stkovf hpcon,
    congrArg Pcon.stkunf hpcon, congrArg Pcon.nRWDT hpcon, congrArg Pcon.nRMCLR hpcon, congrArg Pcon.nRI hpcon,
    congrArg Pcon.nPOR hpcon, hoption, htrisA, htrisB, htrisC, hstack, hwdt, hwdtPre, hsleeping, hmap, hspec,
    rfl, rfl, rfl, rfl, rfl, rfl, rfl, rfl, rfl⟩

end Sys2Proof.Machine
end

section
/-! SUPPORT. The machine step (R17, R236): from the fetched word to `exec`, and lines 1 to 4 in a quiet environment. -/

namespace Sys2Proof.Machine

section
variable {s t : State} {i : Instr}

/-- Below PM_WORDS a fetch gives the instruction that the word at pc decodes to (R17, R78). -/
theorem fetch_of_decode (hpc : s.pc.toNat < s.cfg.pmWords) (hi : decode (s.prog.read s.pc.toNat) = .ok i) :
    fetch s = .ok i := by
  unfold fetch pmRead
  rw [if_pos hpc]
  simp only [hi]

/-- The core step runs the fetched instruction (R17). -/
theorem coreStep_of_fetch (h : fetch s = .ok i) : coreStep s = exec i s := by
  unfold coreStep
  rw [h]

/-- A step whose lines 1 to 4 lead to a core step is that core step (R236). -/
theorem step_of_run (h : envPhase s = .run t) : step s = coreStep t := by
  unfold step
  rw [h]

/-- A step that lines 1 to 4 end has their outcome (R236). -/
theorem step_of_ends {r : Result} (h : envPhase s = .ends r) : step s = r := by
  unfold step
  rw [h]

/-- With no choice pending the environment's choice is the quiet one (assumption log 2). -/
theorem choice_of_env_nil (h : s.env = []) : s.choice = quietChoice := by
  unfold State.choice
  rw [h]
  rfl

/-- Using up a choice where none is pending changes nothing. -/
theorem dropChoice_of_env_nil (h : s.env = []) : s.dropChoice = s := by
  have htail : s.env.tail = s.env := by rw [h]; rfl
  unfold State.dropChoice
  rw [htail]

/-- The quiet choice sets no request input. -/
theorem setInputs_quiet (s : State) : s.setInputs quietChoice = s := by
  have hflags : s.intcon ||| (0b0000#4 ++ BitVec.ofBool false ++ BitVec.ofBool false ++ BitVec.ofBool false) = s.intcon :=
    BitVec.or_zero
  unfold State.setInputs
  simp only [quietChoice, hflags, Option.getD_none]

/-- No interrupt entry is possible without GIE or without a request (R235). -/
theorem entryPossible_eq_false (h : s.gie = false ∨ s.intReq = false) : s.entryPossible = false := by
  unfold State.entryPossible
  rcases h with h | h <;> rw [h]
  · rfl
  · exact Bool.and_false _

/-- An awake core where no entry is possible executes an instruction, whatever the environment chooses (R236 line 4). -/
theorem awakePhase_of_no_entry (e : EnvChoice) (h : s.entryPossible = false) : awakePhase e s = .run (s.forCore 0) := by
  unfold awakePhase
  rw [h]
  rfl

/-- In a quiet environment an awake core where no entry is possible executes an instruction (R236; assumption logs 2, 9, 11). -/
theorem envPhase_quiet (henv : s.env = []) (hawake : s.sleeping = false) (hentry : s.entryPossible = false) :
    envPhase s = .run (s.forCore 0) := by
  have hinput : inputPhase quietChoice s = awakePhase quietChoice s := by
    unfold inputPhase
    simp only [setInputs_quiet, hawake]
    rfl
  unfold envPhase
  rw [choice_of_env_nil henv, dropChoice_of_env_nil henv]
  exact hinput.trans (awakePhase_of_no_entry _ hentry)

end

/-- Settles O7: lines 1 to 4 give the state or the outcome, and line 5 is `exec` of the fetched instruction; in a quiet environment the
state differs in the model's counters only, which no fetch reads. -/
theorem stepRunsTheDecodedInstruction : Obligations.StepRunsTheDecodedInstruction := by
  refine ⟨fun s t i hrun hpc hi => ?_, fun s r hends => step_of_ends hends, fun s i henv hawake hint hpc hi => ?_⟩
  · rw [step_of_run hrun, coreStep_of_fetch (fetch_of_decode hpc hi)]
  · have hrun := envPhase_quiet henv hawake (entryPossible_eq_false hint)
    rw [step_of_run hrun]
    exact coreStep_of_fetch (s := s.forCore 0) (fetch_of_decode hpc hi)

end Sys2Proof.Machine
end
section
/-! SUPPORT. The frame of every instruction that resets nothing, said once, and the frame statements. -/

namespace Sys2Proof.Machine

/-- What an instruction leaves unchanged where it does not reset the device: for each part of the state, under the condition that no
form of `exec_next` writes it (R20 to R48, R53). -/
structure InstrFrame (i : Instr) (s t : State) : Prop where
  w : writesW i = false → storeTarget i s ≠ some (.core .wreg) → ¬RestoresContext i s → t.w = s.w
  c : (affects i).c = false → storeTarget i s ≠ some (.core .status) → ¬RestoresContext i s → t.c = s.c
  dc : (affects i).dc = false → storeTarget i s ≠ some (.core .status) → ¬RestoresContext i s → t.dc = s.dc
  z : (affects i).z = false → storeTarget i s ≠ some (.core .status) → ¬RestoresContext i s → t.z = s.z
  powerBits : i ≠ .clrwdt → i ≠ .sleep → t.nTO = s.nTO ∧ t.nPD = s.nPD
  pclath : (∀ k, i ≠ .movlp k) → storeTarget i s ≠ some (.core .pclath) → ¬RestoresContext i s → t.pclath = s.pclath
  bsr : (∀ k, i ≠ .movlb k) → storeTarget i s ≠ some (.core .bsr) → ¬RestoresContext i s → t.bsr = s.bsr
  fsr0 : (∀ k, i ≠ .addfsr .fsr0 k) → (∀ mm, i ≠ .moviwMode .fsr0 mm ∧ i ≠ .movwiMode .fsr0 mm) →
    storeTarget i s ≠ some (.core .fsr0l) → storeTarget i s ≠ some (.core .fsr0h) → ¬RestoresContext i s → t.fsr0 = s.fsr0
  fsr1 : (∀ k, i ≠ .addfsr .fsr1 k) → (∀ mm, i ≠ .moviwMode .fsr1 mm ∧ i ≠ .movwiMode .fsr1 mm) →
    storeTarget i s ≠ some (.core .fsr1l) → storeTarget i s ≠ some (.core .fsr1h) → ¬RestoresContext i s → t.fsr1 = s.fsr1
  optionReg : i ≠ .option → storeTarget i s ≠ some .optionReg → t.optionReg = s.optionReg
  trisA : i ≠ .tris5 → storeTarget i s ≠ some .trisA → t.trisA = s.trisA
  trisB : i ≠ .tris6 → storeTarget i s ≠ some .trisB → t.trisB = s.trisB
  trisC : i ≠ .tris7 → storeTarget i s ≠ some .trisC → t.trisC = s.trisC
  pcon : storeTarget i s ≠ some .pcon → t.pcon = s.pcon
  intcon : storeTarget i s ≠ some (.core .intcon) → t.intcon = s.intcon ∧ (i ≠ .retfie → t.gie = s.gie)
  stack : ¬UsesStack i → t.stack = s.stack ∧ t.slot15 = s.slot15
  watchdog : i ≠ .clrwdt → i ≠ .sleep → t.wdt = s.wdt ∧ t.wdtPre = s.wdtPre
  sleeping : i ≠ .sleep → t.sleeping = s.sleeping
  intWait : t.intWait = s.intWait
  shadows : (∀ r, storeTarget i s ≠ some (.shadow r)) →
    t.wShad = s.wShad ∧ t.statusShad = s.statusShad ∧ t.bsrShad = s.bsrShad ∧ t.pclathShad = s.pclathShad ∧
      t.fsr0Shad = s.fsr0Shad ∧ t.fsr1Shad = s.fsr1Shad ∧ t.unwrittenShadows = s.unwrittenShadows
  ram : t.ram = s.ram ∨ ∃ key v, storeTarget i s = some (.ram key) ∧ t.ram = s.ram.write key v
  parameters : t.prog = s.prog ∧ t.cfg = s.cfg ∧ t.env = s.env ∧ t.periphReq = s.periphReq ∧ t.powerOns = s.powerOns

section
variable {i : Instr} {s t n : State}

/-- A state in which pc has moved on by one word or two differs in pc alone. -/
theorem eq_setPc_of_moved (h : n = s.advance ∨ n = s.skipNext) : ∃ p, n = s.setPc p := by
  rcases h with rfl | rfl
  · exact ⟨s.pc + 1, rfl⟩
  · exact ⟨s.pc + 2, rfl⟩

/-- Without AUTO_CONTEXT nothing is restored (R190). -/
theorem restoreContext_eq_self (h : s.cfg.autoContext = false) : s.restoreContext = s := by
  unfold State.restoreContext
  rw [h]
  rfl

/-- RAM after a write to a location: the byte of a RAM location, or as it was. -/
theorem writeLoc_ram_cases {l : Loc} {k : FlagKind} {v : Byte} (h : writeLoc s l k v = .ok t) :
    t.ram = s.ram ∨ ∃ key, l = .ram key ∧ t.ram = s.ram.write key v := by
  have hram := writeLoc_ram h
  cases l
  case ram key => exact .inr ⟨key, rfl, hram⟩
  all_goals exact .inl hram

/-- Nothing at all has changed. -/
theorem InstrFrame.refl (i : Instr) (s : State) : InstrFrame i s s where
  w _ _ _ := rfl
  c _ _ _ := rfl
  dc _ _ _ := rfl
  z _ _ _ := rfl
  powerBits _ _ := ⟨rfl, rfl⟩
  pclath _ _ _ := rfl
  bsr _ _ _ := rfl
  fsr0 _ _ _ _ _ := rfl
  fsr1 _ _ _ _ _ := rfl
  optionReg _ _ := rfl
  trisA _ _ := rfl
  trisB _ _ := rfl
  trisC _ _ := rfl
  pcon _ := rfl
  intcon _ := ⟨rfl, fun _ => rfl⟩
  stack _ := ⟨rfl, rfl⟩
  watchdog _ _ := ⟨rfl, rfl⟩
  sleeping _ := rfl
  intWait := rfl
  shadows _ := ⟨rfl, rfl, rfl, rfl, rfl, rfl, rfl⟩
  ram := .inl rfl
  parameters := ⟨rfl, rfl, rfl, rfl, rfl⟩

/-- A write to the location that `storeTarget` names, on a state whose pc has moved on. -/
theorem InstrFrame.of_writeLoc {l : Loc} {k : FlagKind} {v : Byte} {p : ProgAddr} (htarget : storeTarget i s = some l)
    (hwrite : writeLoc (s.setPc p) l k v = .ok t) : InstrFrame i s t := by
  have hne : ∀ {l'}, storeTarget i s ≠ some l' → l ≠ l' := fun h e => h (e ▸ htarget)
  obtain ⟨hnTO, hnPD, hstack, hslot, hwdt, hwdtPre, hsleeping, hprog, hcfg, hperiph, henv, hpower, hwait⟩ :=
    writeLoc_frame hwrite
  obtain ⟨hw, -, hpclath, hbsr, hfsr0, hfsr1, hflags, hintcon, hpcon, hoption, htrisA, htrisB, htrisC, hshadow⟩ :=
    writeLoc_registers hwrite
  have hram : t.ram = s.ram ∨ ∃ key v, storeTarget i s = some (.ram key) ∧ t.ram = s.ram.write key v := by
    rcases writeLoc_ram_cases hwrite with h | ⟨key, rfl, h⟩
    · exact .inl h
    · exact .inr ⟨key, v, htarget, h⟩
  exact
    { w := fun _ h _ => hw (hne h)
      c := fun _ h _ => (hflags (hne h)).1
      dc := fun _ h _ => (hflags (hne h)).2.1
      z := fun _ h _ => (hflags (hne h)).2.2
      powerBits := fun _ _ => ⟨hnTO, hnPD⟩
      pclath := fun _ h _ => hpclath (hne h)
      bsr := fun _ h _ => hbsr (hne h)
      fsr0 := fun _ _ hl hh _ => hfsr0 (hne hl) (hne hh)
      fsr1 := fun _ _ hl hh _ => hfsr1 (hne hl) (hne hh)
      optionReg := fun _ h => hoption (hne h)
      trisA := fun _ h => htrisA (hne h)
      trisB := fun _ h => htrisB (hne h)
      trisC := fun _ h => htrisC (hne h)
      pcon := fun h => hpcon (hne h)
      intcon := fun h => ⟨(hintcon (hne h)).2, fun _ => (hintcon (hne h)).1⟩
      stack := fun _ => ⟨hstack, hslot⟩
      watchdog := fun _ _ => ⟨hwdt, hwdtPre⟩
      sleeping := fun _ => hsleeping
      intWait := hwait
      shadows := fun h => hshadow fun r => hne (h r)
      ram := hram
      parameters := ⟨hprog, hcfg, henv, hperiph, hpower⟩ }

/-- Writing W is within the frame of an instruction of R21's list. -/
theorem InstrFrame.setW (h : InstrFrame i s t) (hw : writesW i = true) (v : Byte) : InstrFrame i s (t.setW v) :=
  { h with w := fun hn _ _ => absurd (hw.symm.trans hn) (by decide) }

/-- So is writing flags of the instruction's Status Affected list (R36). -/
theorem InstrFrame.setFlags (h : InstrFrame i s t) {fl : FlagWrite} (hfl : fl.Within (affects i)) :
    InstrFrame i s (t.setFlags fl) := by
  obtain ⟨hc, hdc, hz⟩ := hfl
  exact
    { h with
      c := fun ha hs hr => by rw [State.setFlags_c, hc ha]; exact h.c ha hs hr
      dc := fun ha hs hr => by rw [State.setFlags_dc, hdc ha]; exact h.dc ha hs hr
      z := fun ha hs hr => by rw [State.setFlags_z, hz ha]; exact h.z ha hs hr }

/-- So is writing the pointer that ADDFSR or a form with modifier names (R212, R213, R215). -/
theorem InstrFrame.setFsr (h : InstrFrame i s t) {n : FsrSel}
    (hi : (∃ k, i = .addfsr n k) ∨ ∃ mm, i = .moviwMode n mm ∨ i = .movwiMode n mm) (p : Ptr) :
    InstrFrame i s (t.setFsr n p) := by
  have hnamed : (∀ k, i ≠ .addfsr n k) → ¬∀ mm, i ≠ .moviwMode n mm ∧ i ≠ .movwiMode n mm := by
    rintro hadd hmode
    rcases hi with ⟨k, hk⟩ | ⟨mm, hm | hm⟩
    · exact hadd k hk
    · exact (hmode mm).1 hm
    · exact (hmode mm).2 hm
  cases n
  · exact { h with fsr0 := fun hadd hmode => absurd hmode (hnamed hadd) }
  · exact { h with fsr1 := fun hadd hmode => absurd hmode (hnamed hadd) }

/-- RETFIE writes the stack, pc and GIE, and beside them what the context restore does (R190). -/
theorem InstrFrame.retfie (st : List ProgAddr) (p : ProgAddr) :
    InstrFrame .retfie s ({ s with stack := st, pc := p, gie := true } : State).restoreContext := by
  have huses : UsesStack .retfie := .inr (.inr (.inr (.inr rfl)))
  have hreturned : InstrFrame .retfie s { s with stack := st, pc := p, gie := true } :=
    { InstrFrame.refl .retfie s with
      intcon := fun _ => ⟨rfl, fun h => absurd rfl h⟩
      stack := fun h => absurd huses h }
  unfold State.restoreContext
  split
  next hauto =>
    have hrestores : RestoresContext .retfie s := ⟨rfl, hauto⟩
    exact
      { hreturned with
        w := fun _ _ h => absurd hrestores h
        c := fun _ _ h => absurd hrestores h
        dc := fun _ _ h => absurd hrestores h
        z := fun _ _ h => absurd hrestores h
        pclath := fun _ _ h => absurd hrestores h
        bsr := fun _ _ h => absurd hrestores h
        fsr0 := fun _ _ _ _ h => absurd hrestores h
        fsr1 := fun _ _ _ _ h => absurd hrestores h }
  next => exact hreturned

/-- The frame of an instruction that writes a location. -/
theorem StoresTo.frame (h : StoresTo i s t) : InstrFrame i s t := by
  obtain ⟨l, k, v, n, u, htarget, hmoved, hwrite, hend⟩ := h
  obtain ⟨p, rfl⟩ := eq_setPc_of_moved hmoved
  have hstored : InstrFrame i s u := .of_writeLoc htarget hwrite
  rcases hend with ⟨fl, hfl, rfl⟩ | ⟨q, mm, hi, rfl⟩
  · exact hstored.setFlags hfl
  · exact hstored.setFsr (.inr ⟨mm, .inr hi⟩) _

/-- The frame of an instruction that writes W. -/
theorem WritesToW.frame (h : WritesToW i s t) : InstrFrame i s t := by
  obtain ⟨-, hw, n, v, fl, hmoved, hfl, rfl⟩ := h
  obtain ⟨p, rfl⟩ := eq_setPc_of_moved hmoved
  have hjumped : InstrFrame i s (s.setPc p) := { InstrFrame.refl i s with }
  exact (hjumped.setW hw v).setFlags hfl

/-- The frame of an instruction that acts on the register it names, on pc or on the return stack: case by case in the order of
`ActsOnRegisters`, only what the instruction names is given up. -/
theorem ActsOnRegisters.frame (h : ActsOnRegisters i s t) : InstrFrame i s t := by
  have hnext : InstrFrame i s s.advance := { InstrFrame.refl i s with }
  obtain ⟨-, h⟩ := h
  rcases h with ⟨k, rfl, rfl⟩ | ⟨k, rfl, rfl⟩ | ⟨p, -, rfl⟩ | ⟨huses, -, st, sl, p, w, hw, rfl⟩ | ⟨rfl, st, p, rfl⟩ |
    ⟨rfl, rfl⟩ | ⟨rfl, rfl⟩ | ⟨rfl, rfl⟩ | ⟨rfl, rfl⟩ | ⟨rfl, rfl⟩ | ⟨rfl, rfl⟩ | ⟨n, k, hi, rfl⟩ |
    ⟨n, mm, p, v, fl, rfl, hfl, rfl⟩
  · exact { hnext with bsr := fun h => absurd rfl (h k) }
  · exact { hnext with pclath := fun h => absurd rfl (h k) }
  · exact { hnext with }
  · exact
      { hnext with
        w := fun hn _ _ => hw.resolve_right (by simp [hn])
        stack := fun h => absurd huses h }
  · exact .retfie st p
  · exact { hnext with powerBits := fun h => absurd rfl h, watchdog := fun h => absurd rfl h }
  · exact { hnext with optionReg := fun h => absurd rfl h }
  · exact { hnext with trisA := fun h => absurd rfl h }
  · exact { hnext with trisB := fun h => absurd rfl h }
  · exact { hnext with trisC := fun h => absurd rfl h }
  · exact
      { hnext with
        powerBits := fun _ h => absurd rfl h
        watchdog := fun _ h => absurd rfl h
        sleeping := fun h => absurd rfl h }
  · exact hnext.setFsr (.inl ⟨k, hi⟩) _
  · exact ((hnext.setFsr (.inr ⟨mm, .inl rfl⟩) p).setW rfl v).setFlags hfl

/-- EVERY NEXT STATE OF AN INSTRUCTION keeps the frame, or is that of a reset the instruction raises. -/
theorem exec_frame (h : exec i s = .next t) : InstrFrame i s t ∨ Resets i s t := by
  rcases exec_next h with (h | h) | h | h
  · exact .inl h.frame
  · exact .inl h.frame
  · exact .inr h
  · exact .inl h.frame

/-- What any reset but a power-on leaves alone, whatever the table says: RAM, the parameters, the environment, the count of
power-ons. -/
theorem deviceReset_untouched {k : ResetKind} (hk : k ≠ .powerOn) (s : State) :
    let t := deviceReset k s
    t.ram = s.ram ∧ t.prog = s.prog ∧ t.cfg = s.cfg ∧ t.env = s.env ∧ t.periphReq = s.periphReq ∧
      t.powerOns = s.powerOns := by
  unfold deviceReset
  rw [if_neg hk]
  exact ⟨rfl, rfl, rfl, rfl, rfl, rfl⟩

/-- A reset that an instruction raises is no power-on, and only a RETLW has written something before it (R189, R231). -/
theorem Resets.shape (h : Resets i s t) :
    RaisesReset i s ∧ ∃ k w, k ≠ .powerOn ∧ (w = s.w ∨ writesW i = true) ∧ t = deviceReset k { s with w := w } ∧
      (k = .resetInstruction ∨ k = .stackOverflow ∨ k = .stackUnderflow) := by
  obtain ⟨-, hraises, k, s', hkind, hs', rfl⟩ := h
  have hk : k ≠ .powerOn := by rcases hkind with rfl | rfl | rfl <;> decide
  refine ⟨hraises, k, ?_⟩
  rcases hs' with rfl | ⟨b, rfl, rfl⟩
  · exact ⟨s'.w, hk, .inl rfl, rfl, hkind⟩
  · exact ⟨b, hk, .inr rfl, rfl, hkind⟩

/-- A reset that an instruction raises keeps RAM, the parameters, the environment and the count of power-ons. -/
theorem Resets.untouched (h : Resets i s t) :
    t.ram = s.ram ∧ t.prog = s.prog ∧ t.cfg = s.cfg ∧ t.env = s.env ∧ t.periphReq = s.periphReq ∧
      t.powerOns = s.powerOns := by
  obtain ⟨-, k, w, hk, -, rfl, -⟩ := h.shape
  exact deviceReset_untouched hk { s with w := w }

/-- By the spec's table, the causes that an instruction can raise keep nTO and nPD (R51 `q`). -/
theorem causeEntries_of_instruction {k : ResetKind} (htable : s.cfg.resetValues = resetValuesDefault)
    (hkind : k = .resetInstruction ∨ k = .stackOverflow ∨ k = .stackUnderflow) :
    (s.causeEntries k).nTO = none ∧ (s.causeEntries k).nPD = none := by
  rcases hkind with rfl | rfl | rfl <;> simp [State.causeEntries, htable, resetValuesDefault, causeKeeps]

/-- By the spec's table, what a reset that an instruction raises keeps of the registers (R51). -/
theorem Resets.keeps (h : Resets i s t) (htable : s.cfg.resetValues = resetValuesDefault) :
    (writesW i = false → t.w = s.w) ∧ (t.c = s.c ∧ t.dc = s.dc ∧ t.z = s.z) ∧ (t.nTO = s.nTO ∧ t.nPD = s.nPD) ∧
      (t.fsr0 = s.fsr0 ∧ t.fsr1 = s.fsr1) ∧
      t.wShad = s.wShad ∧ t.statusShad = s.statusShad ∧ t.bsrShad = s.bsrShad ∧ t.pclathShad = s.pclathShad ∧
      t.fsr0Shad = s.fsr0Shad ∧ t.fsr1Shad = s.fsr1Shad ∧ t.unwrittenShadows = s.unwrittenShadows := by
  obtain ⟨-, k, w, hk, hw, rfl, hkind⟩ := h.shape
  obtain ⟨hw', hc, hdc, hz, hfsr0, hfsr1, -, hshadows⟩ := deviceReset_keeps (s := { s with w := w }) hk htable
  obtain ⟨-, hto, hpd⟩ := deviceReset_by_cause (s := { s with w := w }) k hk htable rfl
  obtain ⟨hnTO, hnPD⟩ := causeEntries_of_instruction (s := { s with w := w }) htable hkind
  rw [hnTO] at hto
  rw [hnPD] at hpd
  exact ⟨fun h => hw'.trans (hw.resolve_right (by simp [h])), ⟨hc, hdc, hz⟩, ⟨hto, hpd⟩, ⟨hfsr0, hfsr1⟩, hshadows⟩

/-- A RAM byte is decided by what RAM lists at its key and by the count of power-ons (R48; assumption logs 4, 10). -/
theorem ramByte_congr {key : Nat} (hram : t.ram.read key = s.ram.read key) (hpower : t.powerOns = s.powerOns) :
    t.ramByte key = s.ramByte key := by
  unfold State.ramByte
  rw [hram, hpower]

end

/-- Settles O46: a write goes to the key of the location and to no other, and the resets of instructions keep RAM. -/
theorem ramFrameOfEveryInstruction : Obligations.RamFrameOfEveryInstruction := by
  intro i s t key h htarget
  rcases exec_frame h with hframe | hreset
  · obtain ⟨-, -, -, -, hpower⟩ := hframe.parameters
    refine ramByte_congr ?_ hpower
    rcases hframe.ram with hram | ⟨key', v, htarget', hram⟩
    · rw [hram]
    · have hother : key ≠ key' := fun e => htarget (e ▸ htarget')
      rw [hram, Memory.read_write_other s.ram key' key v hother]
  · obtain ⟨hram, -, -, -, -, hpower⟩ := hreset.untouched
    exact ramByte_congr (congrArg (Memory.read · key) hram) hpower

/-- Settles O47: from the frame of W, and for resets from the table. -/
theorem workingRegisterFrame : Obligations.WorkingRegisterFrame := by
  intro i s t h hwrites htarget hrestores htable
  rcases exec_frame h with hframe | hreset
  · exact hframe.w hwrites htarget hrestores
  · obtain ⟨hw, -⟩ := hreset.keeps (htable hreset.shape.1)
    exact hw hwrites

/-- Settles O48: from the frame of the five bits, and for resets from the table and the entries of their causes. -/
theorem flagFrame : Obligations.FlagFrame := by
  intro i s t h htable
  rcases exec_frame h with hframe | hreset
  · refine ⟨fun htarget hrestores => ⟨fun ha => ?_, fun ha => ?_, fun ha => ?_⟩, hframe.powerBits⟩
    · exact hframe.c ha htarget hrestores
    · exact hframe.dc ha htarget hrestores
    · exact hframe.z ha htarget hrestores
  · obtain ⟨-, ⟨hc, hdc, hz⟩, hpowerBits, -⟩ := hreset.keeps (htable hreset.shape.1)
    exact ⟨fun _ _ => ⟨fun _ => hc, fun _ => hdc, fun _ => hz⟩, fun _ _ => hpowerBits⟩

/-- Settles O49: from the frame of the address registers; a reset is excluded for the first two, and keeps the FSRs by the table. -/
theorem addressRegisterFrame : Obligations.AddressRegisterFrame := by
  intro i s t h hrestores htable
  rcases exec_frame h with hframe | hreset
  · refine ⟨fun hi htarget _ => hframe.pclath hi htarget hrestores, fun hi htarget _ => hframe.bsr hi htarget hrestores,
      fun n hadd hmode hlow hhigh => ?_⟩
    cases n with
    | fsr0 => exact hframe.fsr0 hadd hmode hlow hhigh hrestores
    | fsr1 => exact hframe.fsr1 hadd hmode hlow hhigh hrestores
  · have hraises : RaisesReset i s := hreset.shape.1
    obtain ⟨-, -, -, ⟨hfsr0, hfsr1⟩, -⟩ := hreset.keeps (htable hraises)
    refine ⟨fun _ _ hno => absurd hraises hno, fun _ _ hno => absurd hraises hno, fun n _ _ _ _ => ?_⟩
    cases n with
    | fsr0 => exact hfsr0
    | fsr1 => exact hfsr1

/-- Settles O50: from the frame; a reset is excluded in the first part, keeps the shadow registers by the table, and the rest
always. -/
theorem specialStateFrame : Obligations.SpecialStateFrame := by
  intro i s t h
  rcases exec_frame h with hframe | hreset
  · exact ⟨fun _ => ⟨hframe.optionReg, hframe.trisA, hframe.trisB, hframe.trisC, hframe.pcon, hframe.intcon, hframe.stack,
      hframe.watchdog, hframe.sleeping, hframe.intWait⟩, fun _ => hframe.shadows, hframe.parameters⟩
  · have hraises : RaisesReset i s := hreset.shape.1
    obtain ⟨-, hparameters⟩ := hreset.untouched
    refine ⟨fun hno => absurd hraises hno, fun htable _ => ?_, hparameters⟩
    obtain ⟨-, -, -, -, hshadows⟩ := hreset.keeps (htable hraises)
    exact hshadows

end Sys2Proof.Machine
end
section
/-! SUPPORT. The invariant: what keeps it operation by operation, instruction by instruction, line by line of the machine step. -/

namespace Sys2Proof.Machine

section
variable {c : Params} {s t : State} {key : Nat}

/-- No register that R66 defines is a byte of RAM. -/
theorem sfrMap_lookup_ne_ram (a : DataAddr) : sfrMap.lookup a ≠ some (.ram key) := by
  intro h
  obtain ⟨l₁, l₂, hmap, -⟩ := List.lookup_eq_some_iff.1 h
  have hmem : (a, Loc.ram key) ∈ sfrMap := by rw [hmap]; simp
  simp [sfrMap] at hmem

/-- The bytes of RAM among the special function registers are those of SfrModel (assumption log 16). -/
theorem sfrLoc_ramKeyOk {a : DataAddr} (h : sfrLoc c a = .ok (.ram key)) : ramKeyOk c key := by
  unfold sfrLoc at h
  split at h
  next l hl =>
    injection h with h
    exact absurd (h ▸ hl) (sfrMap_lookup_ne_ram a)
  next =>
    split at h
    next hmodel =>
      injection h with h
      injection h with h
      subst h
      exact .inr ⟨a.isLt, .inr (by simpa using hmodel)⟩
    next => cases h

/-- Every RAM location of data memory is one the configuration has (R67 to R69). -/
theorem dataLoc_ramKeyOk {a : DataAddr} (h : dataLoc c a = .ok (.ram key)) : ramKeyOk c key := by
  simp only [dataLoc] at h
  split at h
  next => cases h
  next =>
    split at h
    next hcommon =>
      injection h with h
      injection h with h
      exact .inl (by omega)
    next =>
      split at h
      next => cases h
      next =>
        split at h
        next => exact sfrLoc_ramKeyOk h
        next =>
          split at h
          next hgpr =>
            injection h with h
            injection h with h
            subst h
            exact .inr ⟨a.isLt, .inl hgpr⟩
          next => cases h

/-- So is every RAM location that a pointer selects (R73 to R77). -/
theorem indLoc_ramKeyOk {p : Ptr} (h : indLoc c p = .ok (.ram key)) : ramKeyOk c key := by
  unfold indLoc at h
  split at h
  next => cases h
  next =>
    split at h
    next => exact dataLoc_ramKeyOk h
    next =>
      split at h
      next => exact dataLoc_ramKeyOk h
      next => cases h

/-- So is every RAM location that a file operand selects (R63, R64). -/
theorem fileLoc_ramKeyOk {f : FileAddr} (h : fileLoc s f = .ok (.ram key)) : ramKeyOk s.cfg key := by
  unfold fileLoc at h
  split at h
  next => exact indLoc_ramKeyOk h
  next => exact dataLoc_ramKeyOk h

/-- An answer that is kept as an option was an answer. -/
theorem toOption_eq_some {ε α : Type} {x : Except ε α} {a : α} (h : x.toOption = some a) : x = .ok a := by
  cases x with
  | ok b => exact congrArg Except.ok (Option.some.inj h)
  | error e => cases h

/-- The location of a file operand with a destination select is the one the operand selects. -/
theorem fileWriteLoc_eq_some {f : FileAddr} {d : Dest} {l : Loc} (h : fileWriteLoc s f d = some l) : fileLoc s f = .ok l := by
  cases d with
  | w => cases h
  | f => exact toOption_eq_some h

/-- The location an instruction writes is selected by its file operand or by a pointer (R71). -/
theorem storeTarget_selected {i : Instr} {l : Loc} (h : storeTarget i s = some l) :
    (∃ f, fileLoc s f = .ok l) ∨ ∃ p, indLoc s.cfg p = .ok l := by
  cases i <;> simp only [storeTarget, reduceCtorEq] at h
  case movwiMode => exact .inr ⟨_, toOption_eq_some h⟩
  case movwiIndexed => exact .inr ⟨_, toOption_eq_some h⟩
  all_goals exact .inl ⟨_, fileWriteLoc_eq_some h⟩

/-- An instruction writes RAM only where the configuration has RAM. -/
theorem storeTarget_ramKeyOk {i : Instr} (h : storeTarget i s = some (.ram key)) : ramKeyOk s.cfg key := by
  rcases storeTarget_selected h with ⟨f, hf⟩ | ⟨p, hp⟩
  · exact fileLoc_ramKeyOk hf
  · exact indLoc_ramKeyOk hp

/-- An admitted configuration has room for the stack that either column of its reset table leaves (R43, R51). -/
theorem wellFormed_resetStacks (h : c.wellFormed = true) :
    c.resetValues.powerOn.stack.length ≤ c.stackDepth ∧ c.resetValues.others.stack.length ≤ c.stackDepth := by
  simp only [Params.wellFormed, Bool.and_eq_true, decide_eq_true_eq] at h
  obtain ⟨⟨⟨-, hpowerOn⟩, hothers⟩, -⟩ := h
  exact ⟨hpowerOn, hothers⟩

/-- The invariant speaks of RAM, program memory, the configuration and the stack only. -/
theorem State.Inv.of_eq (h : s.Inv) (hram : t.ram = s.ram) (hprog : t.prog = s.prog) (hcfg : t.cfg = s.cfg)
    (hstack : t.stack.length ≤ s.cfg.stackDepth) : t.Inv where
  ram := hram ▸ h.ram
  ramKeys := by rw [hram, hcfg]; exact h.ramKeys
  prog := hprog ▸ h.prog
  stack := hcfg ▸ hstack
  cfg := hcfg ▸ h.cfg

/-- A write of a byte that the configuration has keeps the invariant (R48). -/
theorem State.Inv.write_ram (h : s.Inv) (hkey : ramKeyOk s.cfg key) (v : Byte) :
    State.Inv { s with ram := s.ram.write key v } :=
  { h with
    ram := Memory.write_wf h.ram key v
    ramKeys := fun e he => by
      rcases Memory.mem_write he with he | rfl
      · exact h.ramKeys e he
      · exact hkey }

/-- A device reset keeps the invariant, whatever raised it (R51, R261). -/
theorem deviceReset_inv (k : ResetKind) (h : s.Inv) : (deviceReset k s).Inv := by
  obtain ⟨hpowerOn, hothers⟩ := wellFormed_resetStacks h.cfg
  by_cases hk : k = .powerOn
  · have hforgotten : State.Inv { s with ram := [] } := { h with ram := .nil, ramKeys := by simp }
    refine hforgotten.of_eq ?_ (deviceReset_prog k s) (deviceReset_cfg k s) ?_
    · rw [deviceReset_ram, if_pos hk]
    · rw [deviceReset_stack, if_pos hk]
      exact hpowerOn
  · refine h.of_eq ?_ (deviceReset_prog k s) (deviceReset_cfg k s) ?_
    · rw [deviceReset_ram, if_neg hk]
    · rw [deviceReset_stack, if_neg hk]
      exact hothers

/-- A push that goes on keeps the invariant: it had room (R41). -/
theorem push_ok_inv {v : ProgAddr} (h : push v s = .ok t) (hs : s.Inv) : t.Inv := by
  obtain ⟨hroom, rfl⟩ := push_ok h
  exact hs.of_eq rfl rfl rfl hroom

/-- A push that ends in a next state keeps the invariant: it reset the device (R44). -/
theorem push_error_inv {v : ProgAddr} (h : push v s = .error (.next t)) (hs : s.Inv) : t.Inv := by
  obtain ⟨-, ⟨-, hr⟩ | ⟨-, hr⟩⟩ := push_error h
  · injection hr with hr
    exact hr ▸ deviceReset_inv _ hs
  · cases hr

/-- A pop that goes on keeps the invariant (R42). -/
theorem pop_ok_inv {v : ProgAddr} (h : pop s = .ok (v, t)) (hs : s.Inv) : t.Inv := by
  obtain ⟨rest, hstack, rfl⟩ := pop_ok h
  have hfits : (v :: rest).length ≤ s.cfg.stackDepth := hstack ▸ hs.stack
  exact hs.of_eq rfl rfl rfl (Nat.le_of_succ_le hfits)

/-- A pop that ends in a next state keeps the invariant: it reset the device (R44). -/
theorem pop_error_inv (h : pop s = .error (.next t)) (hs : s.Inv) : t.Inv := by
  obtain ⟨-, ⟨-, hr⟩ | ⟨-, hr⟩⟩ := pop_error h
  · injection hr with hr
    exact hr ▸ deviceReset_inv _ hs
  · cases hr

/-- A call keeps the invariant (R181). -/
theorem callTo_inv {a : ProgAddr} (h : callTo a s = .next t) (hs : s.Inv) : t.Inv := by
  unfold callTo at h
  split at h
  next u hu =>
    cases h
    have hpushed := push_ok_inv hu hs
    exact hpushed.of_eq rfl rfl rfl hpushed.stack
  next r hr => exact push_error_inv (h ▸ hr) hs

/-- A return keeps the invariant (R181). -/
theorem returnFrom_inv (h : returnFrom s = .next t) (hs : s.Inv) : t.Inv := by
  unfold returnFrom at h
  split at h
  next v u hu =>
    cases h
    have hpopped := pop_ok_inv hu hs
    exact hpopped.of_eq rfl rfl rfl hpopped.stack
  next r hr => exact pop_error_inv (h ▸ hr) hs

/-- The return from an interrupt keeps the invariant (R190). -/
theorem interruptReturn_inv (h : interruptReturn s = .next t) (hs : s.Inv) : t.Inv := by
  rcases interruptReturn_next h with ⟨v, u, hu, -, rfl⟩ | hr
  · have hpopped := pop_ok_inv hu hs
    refine hpopped.of_eq ?_ ?_ ?_ ?_
    · exact State.restoreContext_ram _
    · exact State.restoreContext_prog _
    · exact State.restoreContext_cfg _
    · rw [State.restoreContext_stack]
      exact hpopped.stack
  · exact pop_error_inv hr hs

/-- An instruction that acts on the return stack keeps the invariant. -/
theorem exec_inv_of_usesStack {i : Instr} (hi : UsesStack i) (h : exec i s = .next t) (hs : s.Inv) : t.Inv := by
  rcases hi with ⟨k, rfl⟩ | rfl | rfl | ⟨k, rfl⟩ | rfl
  · exact callTo_inv h hs
  · exact callTo_inv h hs
  · exact returnFrom_inv h hs
  · exact returnFrom_inv h (hs.of_eq rfl rfl rfl hs.stack)
  · exact interruptReturn_inv h hs

/-- EVERY INSTRUCTION keeps the invariant: outside the return stack by its frame, a write to RAM going where RAM is. -/
theorem exec_inv {i : Instr} (h : exec i s = .next t) (hs : s.Inv) : t.Inv := by
  by_cases hi : UsesStack i
  · exact exec_inv_of_usesStack hi h hs
  · rcases exec_frame h with hframe | hreset
    · obtain ⟨hprog, hcfg, -⟩ := hframe.parameters
      obtain ⟨hstack, -⟩ := hframe.stack hi
      have hfits : t.stack.length ≤ s.cfg.stackDepth := hstack ▸ hs.stack
      rcases hframe.ram with hram | ⟨key, v, htarget, hram⟩
      · exact hs.of_eq hram hprog hcfg hfits
      · exact (hs.write_ram (storeTarget_ramKeyOk htarget) v).of_eq hram hprog hcfg hfits
    · obtain ⟨-, k, w, -, -, rfl, -⟩ := hreset.shape
      exact deviceReset_inv k (hs.of_eq rfl rfl rfl hs.stack)

/-- What lines 1 to 4 lead to has a property: the state in which line 5 runs, or the next state in which the step ends. -/
def Phase.Leads (P : State → Prop) : Phase → Prop
  | .run t => P t
  | .ends r => ∀ t, r = .next t → P t

/-- Line 4 keeps the invariant (R235). -/
theorem awakePhase_inv (e : EnvChoice) (hs : s.Inv) : (awakePhase e s).Leads State.Inv := by
  have hcounted : ∀ {u : State} (n : Nat), u.Inv → (u.forCore n).Inv := fun _ hu => hu.of_eq rfl rfl rfl hu.stack
  unfold awakePhase
  split
  next =>
    split
    next =>
      split
      next t ht =>
        obtain ⟨u, hu, rfl⟩ := interruptEntry_ok ht
        have hpushed := push_ok_inv hu hs
        refine hcounted 0 (hpushed.of_eq ?_ ?_ ?_ ?_)
        · exact State.saveContext_ram u
        · exact State.saveContext_prog u
        · exact State.saveContext_cfg u
        · exact (State.saveContext_stack u).symm ▸ hpushed.stack
      next r hr =>
        intro t ht
        exact push_error_inv (ht ▸ interruptEntry_error hr) hs
    next => exact hcounted _ hs
  next => exact hcounted 0 hs

/-- Lines 2 to 4 keep the invariant (R236). -/
theorem inputPhase_inv (e : EnvChoice) (hs : s.Inv) : (inputPhase e s).Leads State.Inv := by
  unfold inputPhase
  extract_lets t
  have hinputs : t.Inv := hs.of_eq rfl rfl rfl hs.stack
  split
  next =>
    split
    next => exact awakePhase_inv e (hinputs.of_eq rfl rfl rfl hinputs.stack)
    next =>
      rintro u ⟨⟩
      exact deviceReset_inv .watchdog hinputs
  next =>
    split
    next =>
      split
      next => exact awakePhase_inv e (hinputs.of_eq rfl rfl rfl hinputs.stack)
      next =>
        rintro u ⟨⟩
        exact hinputs.of_eq rfl rfl rfl hinputs.stack
    next => exact awakePhase_inv e hinputs

/-- Lines 1 to 4 keep the invariant, whatever the environment chooses (R234, R236). -/
theorem envPhase_inv (hs : s.Inv) : (envPhase s).Leads State.Inv := by
  have hdropped : s.dropChoice.Inv := hs.of_eq rfl rfl rfl hs.stack
  unfold envPhase
  split
  next k _ =>
    rintro t ⟨⟩
    exact deviceReset_inv k.kind hdropped
  next => exact inputPhase_inv s.choice hdropped

/-- A core step that goes on executed an instruction (R17). -/
theorem coreStep_next (h : coreStep s = .next t) : ∃ i, fetch s = .ok i ∧ exec i s = .next t := by
  unfold coreStep at h
  split at h
  next i hi => exact ⟨i, hi, h⟩
  next => cases h

end

/-- Settles O52: nothing is listed, the stack is empty, and the configuration is the PIC16(L)F1508's. -/
theorem resetStateMeetsTheInvariant : Obligations.ResetStateMeetsTheInvariant where
  ram := reset_memories_wf.1
  ramKeys := by simp [State.reset]
  prog := reset_memories_wf.2
  stack := Nat.zero_le _
  cfg := by decide

/-- Settles O51: lines 1 to 4 keep the invariant, and so does the instruction of line 5. -/
theorem everyStepKeepsTheInvariant : Obligations.EveryStepKeepsTheInvariant := by
  intro s t hs h
  have hphase := envPhase_inv hs
  unfold step at h
  split at h
  next u hu =>
    rw [hu] at hphase
    obtain ⟨i, -, hi⟩ := coreStep_next h
    exact exec_inv hi hphase
  next r hr =>
    rw [hr] at hphase
    exact hphase t h

end Sys2Proof.Machine
end
section
/-! SUPPORT. Bit vectors put together and taken apart, on integers. -/

namespace Sys2Proof.Machine

/-- Concatenation, on integers: the left part counts in units of the right part's range. -/
theorem append_eq_ofNat {n m : Nat} (a : BitVec n) (b : BitVec m) :
    a ++ b = BitVec.ofNat (n + m) (2 ^ m * a.toNat + b.toNat) := by
  apply BitVec.eq_of_toNat_eq
  have ha := a.isLt
  have hb := b.isLt
  have hlt : 2 ^ m * a.toNat + b.toNat < 2 ^ (n + m) := by
    calc 2 ^ m * a.toNat + b.toNat < 2 ^ m * (a.toNat + 1) := by rw [Nat.mul_succ]; omega
      _ ≤ 2 ^ m * 2 ^ n := Nat.mul_le_mul_left _ ha
      _ = 2 ^ (n + m) := by rw [Nat.pow_add, Nat.mul_comm]
  rw [BitVec.toNat_append, ← Nat.shiftLeft_add_eq_or_of_lt hb, Nat.shiftLeft_eq, BitVec.toNat_ofNat, Nat.mod_eq_of_lt hlt,
    Nat.mul_comm]

/-- A field of a bit vector, on integers. -/
theorem extractLsb'_eq_ofNat {n : Nat} (x : BitVec n) (start len : Nat) :
    x.extractLsb' start len = BitVec.ofNat len (x.toNat / 2 ^ start) := by
  apply BitVec.eq_of_toNat_eq
  simp [Nat.shiftRight_eq_div_pow]

/-- A single bit, on integers. -/
theorem ofBool_eq_ofNat (b : Bool) : BitVec.ofBool b = BitVec.ofNat 1 b.toNat := by cases b <;> rfl

section
variable (s : State)

/-- `pc + n` on integers is the addition of the program counter (R27). -/
theorem pcPlus_natCast (n : Nat) : pcPlus s n = s.pc + BitVec.ofNat 15 n := by
  unfold pcPlus
  rw [BitVec.ofInt_add, BitVec.ofInt_natCast, BitVec.ofInt_natCast, BitVec.ofNat_toNat, BitVec.setWidth_eq]

/-- The address after the instruction (R27). -/
theorem pcPlus_one : pcPlus s 1 = s.pc + 1 := pcPlus_natCast s 1

/-- The address after the next instruction (R27). -/
theorem pcPlus_two : pcPlus s 2 = s.pc + 2 := pcPlus_natCast s 2

/-- The end of an instruction that did not write pc, with pc on integers. -/
theorem advance_eq : s.advance = { s with pc := pcPlus s 1 } := by
  rw [pcPlus_one]
  rfl

end

end Sys2Proof.Machine
end
section
/-! SUPPORT. The return stack: calls, returns, and what they do on a full and on an empty stack. -/

namespace Sys2Proof.Machine

section
variable {s : State}

/-- The target of CALL on integers (R99). -/
theorem pageTarget_eq_ofNat (s : State) (k : BitVec 11) :
    pageTarget s k = BitVec.ofNat 15 (s.pclath.toNat / 8 * 2048 + k.toNat) := by
  have hp := s.pclath.isLt
  unfold pageTarget
  rw [append_eq_ofNat, extractLsb'_eq_ofNat, BitVec.toNat_ofNat]
  congr 1
  omega

/-- The target of CALLW, and of a write to PCL, on integers (R54, R186). -/
theorem pclathTarget_eq_ofNat (s : State) (v : Byte) : s.pclath ++ v = BitVec.ofNat 15 (256 * s.pclath.toNat + v.toNat) :=
  append_eq_ofNat s.pclath v

/-- A call on a stack with room (R41, R181). -/
theorem callTo_of_room (a : ProgAddr) (h : s.stack.length < s.cfg.stackDepth) :
    callTo a s =
      .next { s with
        stack := pcPlus s 1 :: s.stack
        slot15 := if s.stack.length = 15 then pcPlus s 1 else s.slot15
        pc := a } := by
  unfold callTo
  rw [push_of_room _ h, pcPlus_one]
  rfl

/-- What ends an instruction whose push meets a full stack (R44). -/
def overflowResult (s : State) : Result :=
  if s.cfg.stvren then .next (deviceReset .stackOverflow s) else .refused .stackOverflowUnguarded

/-- What ends an instruction whose pop meets an empty stack (R44). -/
def underflowResult (s : State) : Result :=
  if s.cfg.stvren then .next (deviceReset .stackUnderflow s) else .refused .stackUnderflowUnguarded

/-- A push on a full stack (R44). -/
theorem push_of_full (v : ProgAddr) (h : s.cfg.stackDepth ≤ s.stack.length) : push v s = .error (overflowResult s) := by
  unfold push overflowResult
  rw [if_neg (Nat.not_lt.2 h)]
  split <;> rfl

/-- A pop from an empty stack (R44). -/
theorem pop_of_nil (h : s.stack = []) : pop s = .error (underflowResult s) := by
  unfold pop underflowResult
  rw [h]
  cases s.cfg.stvren <;> rfl

/-- A call on a full stack ends as its push. -/
theorem callTo_of_full (a : ProgAddr) (h : s.cfg.stackDepth ≤ s.stack.length) : callTo a s = overflowResult s := by
  unfold callTo
  rw [push_of_full _ h]

/-- Interrupt entry on a full stack ends as its push (R235). -/
theorem interruptEntry_of_full (h : s.cfg.stackDepth ≤ s.stack.length) : interruptEntry s = .error (overflowResult s) := by
  unfold interruptEntry
  rw [push_of_full _ h]

/-- A return from an empty stack ends as its pop. -/
theorem returnFrom_of_nil (h : s.stack = []) : returnFrom s = underflowResult s := by
  unfold returnFrom
  rw [pop_of_nil h]

/-- The return from an interrupt on an empty stack ends as its pop, before anything is refused (R182, R190). -/
theorem interruptReturn_of_nil (h : s.stack = []) : interruptReturn s = underflowResult s := by
  unfold interruptReturn
  rw [pop_of_nil h]

/-- The return from an interrupt on a stack with entries, where it is not refused (R190). -/
theorem interruptReturn_of_cons {v : ProgAddr} {rest : List ProgAddr} (h : s.stack = v :: rest)
    (hr : s.restoreRefused = false) :
    interruptReturn s = .next ({ s with stack := rest, pc := v, gie := true } : State).restoreContext := by
  unfold interruptReturn
  rw [pop_of_cons h]
  simp only [hr]
  rfl

/-- The refusal of R190 on a stack with entries. -/
theorem interruptReturn_of_refused {v : ProgAddr} {rest : List ProgAddr} (h : s.stack = v :: rest)
    (hr : s.restoreRefused = true) : interruptReturn s = .refused .unknownShadowRegisters := by
  unfold interruptReturn
  rw [pop_of_cons h]
  exact if_pos hr

/-- With AUTO_CONTEXT, a restore is refused exactly where the configuration asks for that and a shadow register holds no value. -/
theorem restoreRefused_iff (h : s.cfg.autoContext = true) :
    s.restoreRefused = true ↔ s.cfg.unknownShadows = .refuse ∧ s.unwrittenShadows ≠ [] := by
  simp [State.restoreRefused, h]

end

/-- The top three bits decide whether a row is CALL's: every row fixes them, and 100 is CALL's alone (R99, R105). -/
theorem covers_eq_of_callBits {w : InstrWord} (hw : w &&& 0x3800#14 = 0x2000#14) {r : OpRow} (hr : r ∈ opTable) :
    r.covers w = (r.value &&& 0x3800#14 == 0x2000#14) := by
  have hfixed : ∀ r ∈ opTable, r.mask &&& 0x3800#14 = 0x3800#14 := by decide
  have halone : ∀ r ∈ opTable, r.value &&& 0x3800#14 = 0x2000#14 → r.mask = 0x3800#14 ∧ r.value = 0x2000#14 := by decide
  rw [Bool.eq_iff_iff, OpRow.covers, beq_iff_eq, beq_iff_eq]
  constructor
  · intro hcovers
    rw [← hcovers, BitVec.and_assoc, hfixed r hr, hw]
  · intro hcall
    obtain ⟨hmask, hvalue⟩ := halone r hr hcall
    rw [hmask, hvalue, hw]

/-- A word with CALL's bits decodes to CALL (R96, R99). -/
theorem decode_call (k : BitVec 11) : decode (0b100#3 ++ k) = .ok (.call k) := by
  have hbits : (0b100#3 ++ k) &&& 0x3800#14 = 0x2000#14 := Laws.masked_one 0b100#3 k
  have hrow : opRowOf (0b100#3 ++ k) = some ⟨"CALL", 0x2000#14, 0x3800#14, fun w => .call (fieldK11 w)⟩ :=
    List.find?_congr fun r hr => covers_eq_of_callBits hbits hr
  have hfield : fieldK11 (0b100#3 ++ k) = k := BitVec.extractLsb'_append_eq_right
  unfold decode
  rw [hrow]
  exact congrArg (Except.ok ∘ Instr.call) hfield

/-- Settles O33: the push has room, and the two targets are those of R99 and R186. -/
theorem callsPushTheReturnAddress : Obligations.CallsPushTheReturnAddress := by
  intro k s
  refine ⟨decode_call k, by decide, rfl, rfl, fun hroom => ⟨?_, ?_⟩⟩
  · rw [← pageTarget_eq_ofNat]
    exact callTo_of_room _ hroom
  · rw [← pclathTarget_eq_ofNat]
    exact callTo_of_room _ hroom

/-- Settles O35: the pop goes on, so R190's refusal decides, and then AUTO_CONTEXT. -/
theorem retfieReturnsAndRestores : Obligations.RetfieReturnsAndRestores := by
  refine ⟨by decide, fun s r rest hstack => ⟨rfl, fun hauto => ?_, fun hauto hvalues => ?_, fun hauto hrefuse hnone => ?_⟩⟩
  · have hallowed : s.restoreRefused = false := by simp [State.restoreRefused, hauto]
    exact (interruptReturn_of_cons hstack hallowed).trans (congrArg _ (restoreContext_eq_self hauto))
  · have hallowed : s.restoreRefused = false := by
      rw [Bool.eq_false_iff, ne_eq, restoreRefused_iff hauto]
      rintro ⟨hrefuse, hnone⟩
      rcases hvalues with huse | hall
      · cases hrefuse.symm.trans huse
      · exact hnone hall
    refine (interruptReturn_of_cons hstack hallowed).trans ?_
    unfold State.restoreContext
    rw [if_pos hauto]
  · exact interruptReturn_of_refused hstack ((restoreRefused_iff hauto).2 ⟨hrefuse, hnone⟩)

/-- Settles O36: each instruction ends as its push or its pop, RETLW's on the state in which W is written. -/
theorem stackOverflowAndUnderflow : Obligations.StackOverflowAndUnderflow := by
  refine ⟨fun s k hfull => ?_, fun s k hempty => ?_⟩
  · have hcall : exec (.call k) s = overflowResult s := callTo_of_full _ hfull
    have hcallw : exec .callw s = overflowResult s := callTo_of_full _ hfull
    rw [hcall, hcallw, interruptEntry_of_full hfull]
    unfold overflowResult
    constructor <;> intro hstvren <;> rw [hstvren] <;> exact ⟨rfl, rfl, rfl⟩
  · have hret : exec .ret s = underflowResult s := returnFrom_of_nil hempty
    have hretfie : exec .retfie s = underflowResult s := interruptReturn_of_nil hempty
    have hretlw : exec (.retlw k) s = underflowResult (s.setW k) := returnFrom_of_nil hempty
    rw [hret, hretfie, hretlw]
    unfold underflowResult
    rw [State.setW_cfg]
    constructor <;> intro hstvren <;> rw [hstvren] <;> exact ⟨rfl, rfl, rfl⟩

end Sys2Proof.Machine
end
section
/-! SUPPORT. The core registers, the special function registers and the stack registers, read and written by address. -/

namespace Sys2Proof.Machine

/-! ### Register bytes on integers -/

section
variable (s : State)

/-- The low field of a bit vector, on integers. -/
theorem lowField_eq_ofNat {m : Nat} (x : BitVec m) (n : Nat) : x.extractLsb' 0 n = BitVec.ofNat n x.toNat := by
  rw [extractLsb'_eq_ofNat, Nat.pow_zero, Nat.div_one]

/-- A bit appended below a number doubles it. -/
theorem ofNat_append_ofBool (n x : Nat) (b : Bool) :
    BitVec.ofNat n x ++ BitVec.ofBool b = BitVec.ofNat (n + 1) (2 * x + b.toNat) := by
  have hmod : 2 * (x % 2 ^ n) + b.toNat ≡ 2 * x + b.toNat [MOD 2 * 2 ^ n] :=
    ((Nat.mod_modEq x (2 ^ n)).mul_left' 2).add_right b.toNat
  rw [append_eq_ofNat, BitVec.toNat_ofBool, BitVec.toNat_ofNat, pow_one]
  apply BitVec.eq_of_toNat_eq
  rw [BitVec.toNat_ofNat, BitVec.toNat_ofNat, Nat.pow_succ']
  exact hmod

/-- The high byte of a 16-bit register, on integers. -/
theorem highByte_eq_ofNat (p : Ptr) : p.extractLsb' 8 8 = BitVec.ofNat 8 (p.toNat / 256) := extractLsb'_eq_ofNat p 8 8

/-- A 16-bit register whose low byte is written, on integers (R28, R50). -/
theorem withLowByte_eq_ofNat (p : Ptr) (v : Byte) :
    p.extractLsb' 8 8 ++ v = BitVec.ofNat 16 (p.toNat / 256 * 256 + v.toNat) := by
  have hp := p.isLt
  rw [append_eq_ofNat, highByte_eq_ofNat, BitVec.toNat_ofNat]
  congr 1
  omega

/-- A 16-bit register whose high byte is written, on integers (R28, R50). -/
theorem withHighByte_eq_ofNat (p : Ptr) (v : Byte) :
    v ++ p.extractLsb' 0 8 = BitVec.ofNat 16 (256 * v.toNat + p.toNat % 256) := by
  rw [append_eq_ofNat, lowField_eq_ofNat, BitVec.toNat_ofNat]
  rfl

/-- A register narrower than a byte reads with zeros above it. -/
theorem zeros_append_eq_ofNat {n m : Nat} (x : BitVec m) : 0#n ++ x = BitVec.ofNat (n + m) x.toNat := by
  rw [append_eq_ofNat, BitVec.toNat_ofNat, Nat.zero_mod, Nat.mul_zero, Nat.zero_add]

/-- A bit of a byte, on integers. -/
theorem getLsbD_eq_decide (v : Byte) (n : Nat) : v.getLsbD n = decide (v.toNat / 2 ^ n % 2 = 1) := by
  rw [BitVec.getLsbD, Nat.testBit_eq_decide_div_mod_eq]

/-- PCL as it reads, on integers (R54). -/
theorem pclByte_eq_ofNat : (s.pc + 1).extractLsb' 0 8 = BitVec.ofNat 8 (s.pc.toNat + 1) := by
  apply BitVec.eq_of_toNat_eq
  rw [lowField_eq_ofNat, BitVec.toNat_ofNat, BitVec.toNat_ofNat, BitVec.toNat_add]
  exact Nat.mod_mod_of_dvd _ (by decide)

/-- STATUS as it reads, on integers (R34). -/
theorem statusByte_eq_ofNat :
    s.statusByte =
      BitVec.ofNat 8 (16 * s.nTO.toNat + 8 * s.nPD.toNat + 4 * s.z.toNat + 2 * s.dc.toNat + s.c.toNat) := by
  unfold State.statusByte
  rw [ofNat_append_ofBool, ofNat_append_ofBool, ofNat_append_ofBool, ofNat_append_ofBool, ofNat_append_ofBool]
  congr 1
  omega

/-- INTCON as it reads, on integers (R37). -/
theorem intconByte_eq_ofNat : s.intconByte = BitVec.ofNat 8 (128 * s.gie.toNat + s.intcon.toNat) := by
  unfold State.intconByte
  rw [append_eq_ofNat, BitVec.toNat_ofBool]
  rfl

/-- INTCON after a software write, on integers: bit 0 stays (R37). -/
theorem setIntcon_eq_ofNat (v : Byte) :
    s.setIntcon v =
      { s with
        gie := decide (0x80 ≤ v.toNat)
        intcon := BitVec.ofNat 7 (v.toNat / 2 % 64 * 2 + s.intcon.toNat % 2) } := by
  have hv := v.isLt
  have hgie : v.getLsbD 7 = decide (0x80 ≤ v.toNat) := by
    rw [getLsbD_eq_decide]
    congr 1
    rw [eq_iff_iff]
    omega
  have hbits : v.extractLsb' 1 6 ++ s.intcon.extractLsb' 0 1 =
      BitVec.ofNat 7 (v.toNat / 2 % 64 * 2 + s.intcon.toNat % 2) := by
    rw [append_eq_ofNat, extractLsb'_eq_ofNat, extractLsb'_eq_ofNat, BitVec.toNat_ofNat, BitVec.toNat_ofNat]
    congr 1
    omega
  unfold State.setIntcon
  rw [hgie, hbits]

/-- STATUS after a write by an instruction that affects no flag, on integers (R35 (a)). -/
theorem setStatus_eq_decide (v : Byte) :
    s.setStatus v =
      { s with c := decide (v.toNat % 2 = 1), dc := decide (v.toNat / 2 % 2 = 1), z := decide (v.toNat / 4 % 2 = 1) } := by
  unfold State.setStatus
  rw [getLsbD_eq_decide, getLsbD_eq_decide, getLsbD_eq_decide, Nat.pow_zero, Nat.div_one]
  rfl

/-- PCON as it reads, on integers (R38). -/
theorem pconByte_eq_ofNat (p : Pcon) :
    p.byte =
      BitVec.ofNat 8 (128 * p.stkovf.toNat + 64 * p.stkunf.toNat + 16 * p.nRWDT.toNat + 8 * p.nRMCLR.toNat +
        4 * p.nRI.toNat + 2 * p.nPOR.toNat + p.nBOR.toNat) := by
  have hbit5 : (0b0#1 : BitVec 1) = BitVec.ofBool false := rfl
  unfold Pcon.byte
  simp only [hbit5, ofBool_eq_ofNat p.stkovf, ofNat_append_ofBool]
  congr 1
  rw [Bool.toNat_false]
  omega

/-- STKPTR as it reads, on integers (R43). -/
theorem stkptrByte_eq_ofNat : 0b000#3 ++ s.stkptr = BitVec.ofNat 8 ((s.stack.length + 31) % 32) := by
  unfold State.stkptr
  rw [zeros_append_eq_ofNat, BitVec.toNat_ofNat]

/-- TOSH as it reads, on integers (R43). -/
theorem toshByte_eq_ofNat (a : ProgAddr) : 0b0#1 ++ a.extractLsb' 8 7 = BitVec.ofNat 8 (a.toNat / 256) := by
  have ha := a.isLt
  rw [zeros_append_eq_ofNat, extractLsb'_eq_ofNat, BitVec.toNat_ofNat]
  congr 1
  omega

end

/-! ### Accesses by address -/

section
variable {s n t : State} {a : DataAddr} {f : FileAddr} {l : Loc} {k : FlagKind} {v : Byte} {r : CoreReg}

/-- Reading a data address is reading the location it selects (R65). -/
theorem memRead_of_loc (h : dataLoc s.cfg a = .ok l) : memRead s a = readLoc s l := by
  unfold memRead
  rw [h]

/-- Writing a data address is writing the location it selects (R65). -/
theorem memWrite_of_loc (h : dataLoc s.cfg a = .ok l) (k : FlagKind) (v : Byte) : memWrite s a k v = writeLoc s l k v := by
  unfold memWrite
  rw [h]

/-- Reading a file operand is reading the location it selects (R63). -/
theorem fread_of_loc (h : fileLoc s f = .ok l) : fread s f = readLoc s l := by
  unfold fread
  rw [h]

/-- Writing a file operand is writing the location it selects (R64). -/
theorem fwrite_of_loc (h : fileLoc s f = .ok l) (n : State) (k : FlagKind) (v : Byte) : fwrite s n f k v = writeLoc n l k v := by
  unfold fwrite
  rw [h]

/-- A core register but INDFn is read and written through its file operand, whatever BSR holds (R50). -/
theorem core_access (h : hasSpecMap s.cfg) (h0 : f ≠ 0x00) (h1 : f ≠ 0x01) (hr : coreRegMapDefault[f.toNat]? = some r)
    (n : State) (k : FlagKind) (v : Byte) : fread s f = .ok (readCore s r) ∧ fwrite s n f k v = writeCore n k v r :=
  ⟨fread_of_loc (fileLoc_core h h0 h1 hr), fwrite_of_loc (fileLoc_core h h0 h1 hr) n k v⟩

/-- A file operand that goes through the pointer `p` is read and written there (R63, R64). -/
theorem indf_access {p : Ptr} (h : s.indfPointer f = some p) (hn : n.cfg = s.cfg) (k : FlagKind) (v : Byte) :
    fread s f = indRead s p ∧ fwrite s n f k v = indWrite n p k v := by
  unfold fread fwrite indRead indWrite
  rw [fileLoc_indf h, hn]
  exact ⟨rfl, rfl⟩

/-- Offset 0x03 of every bank is STATUS (R50). -/
theorem dataLoc_status (h : hasSpecMap s.cfg) (ha : a.toNat % 128 = 0x03) : dataLoc s.cfg a = .ok (.core .status) :=
  dataLoc_core (bank_lt_nbanks h a) (by rw [ha, coreAt_spec h]; rfl)

/-- The registers that R66 defines stand among the special function registers (R65, R66). -/
theorem isSfrAddress_of_lookup (h : sfrMap.lookup a = some l) : isSfrAddress a := by
  have hall : ∀ a ∈ definedSfr, isSfrAddress a := by simp [definedSfr, isSfrAddress]
  by_contra hn
  have hnone : sfrMap.lookup a = none := sfrMap_lookup_eq_none fun ha => hn (hall a ha)
  cases h.symm.trans hnone

/-- A register that R66 defines is read and written at its data address, in a configuration with all banks. -/
theorem sfr_access (hn : s.cfg.nbanks = 32) (hl : sfrMap.lookup a = some l) (k : FlagKind) (v : Byte) :
    memRead s a = readLoc s l ∧ memWrite s a k v = writeLoc s l k v := by
  have hloc : dataLoc s.cfg a = .ok l := by
    rw [dataLoc_sfr (bank_lt_of_nbanks hn a) (isSfrAddress_of_lookup hl)]
    unfold sfrLoc
    rw [hl]
  exact ⟨memRead_of_loc hloc, memWrite_of_loc hloc k v⟩

/-! ### Instructions on a core register -/

/-- A file destination whose write goes on gets the result, and then the flags are written (R12, R120). -/
theorem writeBack_f_of_fwrite {x : AluResult} (h : fwrite s n f x.flags.kind x.value = .ok t) :
    writeBack s n f .f x = .next (t.setFlags x.flags) := by
  unfold writeBack
  simp only [h]

/-- An `f, d` instruction whose operand can be read writes its result back (R120). -/
theorem byteOp_of_fread {d : Dest} {alu : Byte → AluResult} (h : fread s f = .ok v) :
    byteOp f d alu s = writeBack s s.advance f d (alu v) := by
  unfold byteOp
  rw [h]

/-- An `f, d` instruction with its destination in W through the file address of WREG (R22). -/
theorem byteOp_wreg (h : hasSpecMap s.cfg) (alu : Byte → AluResult) :
    byteOp 0x09 .f alu s = .next ((s.advance.setW (alu s.w).value).setFlags (alu s.w).flags) := by
  obtain ⟨hread, hwrite⟩ := core_access (f := 0x09) (r := .wreg) h (by decide) (by decide) rfl s.advance
    (alu s.w).flags.kind (alu s.w).value
  rw [byteOp_of_fread hread]
  exact writeBack_f_of_fwrite hwrite

/-- A skip instruction bound for PCL is refused (R54). -/
theorem skipOp_pcl {g : Byte → Byte} (hread : fread s f = .ok v) (hpcl : fileLoc s f = .ok (.core .pcl)) :
    skipOp f .f g s = .refused .skipWritesPcl := by
  have hselects : selectsPcl s f = true := by
    unfold selectsPcl
    rw [hpcl]
    rfl
  unfold skipOp
  rw [hread]
  simp only [hselects]
  rfl

/-- A flag that a write to STATUS leaves open takes the written bit or keeps its value (assumption log 8). -/
theorem pickFlag_eq_or (takes written old : Bool) : pickFlag takes written old = written ∨ pickFlag takes written old = old := by
  cases takes
  · exact .inr rfl
  · exact .inl rfl

/-- A write to STATUS that the spec leaves open, flag by flag (R35 (c); assumption log 8). -/
theorem setStatusOpen_cases (s : State) (v : Byte) :
    ∃ c dc z : Bool, (c = v.getLsbD 0 ∨ c = s.c) ∧ (dc = v.getLsbD 1 ∨ dc = s.dc) ∧ (z = v.getLsbD 2 ∨ z = s.z) ∧
      s.setStatusOpen v = { s with c := c, dc := dc, z := z, statusPicks := s.statusPicks + 1 } :=
  ⟨_, _, _, pickFlag_eq_or _ _ _, pickFlag_eq_or _ _ _, pickFlag_eq_or _ _ _, rfl⟩

/-- A byte given by a number is zero when its residue is. -/
theorem isZero_ofNat (n : Nat) : isZero (BitVec.ofNat 8 n) = decide (n % 256 = 0) := by
  rw [isZero, Bool.eq_iff_iff, beq_iff_eq, decide_eq_true_eq, ← BitVec.toNat_inj, BitVec.toNat_ofNat]
  exact Iff.rfl

/-- The sum of two bytes with its flags, the second byte given by a number (R121). -/
theorem add8_ofNat (b : Byte) {n : Nat} (hn : n < 256) :
    add8 b (BitVec.ofNat 8 n) false =
      { value := BitVec.ofNat 8 (b.toNat + n)
        flags :=
          { c := some (decide (256 ≤ b.toNat + n)), dc := some (decide (16 ≤ b.toNat % 16 + n % 16))
            z := some (decide ((b.toNat + n) % 256 = 0)) } } := by
  have hval : (BitVec.ofNat 8 n).toNat = n := by rw [BitVec.toNat_ofNat, Nat.mod_eq_of_lt hn]
  simp only [add8, hval, Bool.toNat_false, Nat.add_zero, isZero_ofNat]

/-- Rotating right through the bit that rotating left put out gives the byte and the carry back (R139, R140). -/
theorem rr8_rl8 (v : Byte) (c : Bool) : rr8 (rl8 v c).value (v.getLsbD 7) = cResult v c := by
  have htop : BitVec.ofBool (v.getLsbD 7) = v.extractLsb' 7 1 := by
    apply BitVec.eq_of_getLsbD_eq
    intro i hi
    obtain rfl : i = 0 := by omega
    simp
  have hbyte : BitVec.ofBool (v.getLsbD 7) ++ (v.extractLsb' 0 7 ++ BitVec.ofBool c).extractLsb' 1 7 = v := by
    rw [BitVec.extractLsb'_append_eq_left, htop, BitVec.extractLsb'_append_extractLsb'_eq_extractLsb' (by decide),
      BitVec.extractLsb'_eq_self]
  have hcarry : (v.extractLsb' 0 7 ++ BitVec.ofBool c).getLsbD 0 = c := by
    rw [BitVec.getLsbD_append]
    exact BitVec.getLsbD_ofBool c 0
  unfold rr8 rl8 cResult
  simp only [hbyte, hcarry]

end

/-- Settles O12: INDFn goes through its FSR; the other ten are read and written as core registers. -/
theorem coreRegistersOfEveryBank : Obligations.CoreRegistersOfEveryBank := by
  intro s n v hmap hn
  have hp0 : s.indfPointer 0x00 = some s.fsr0 := by rw [indfPointer_spec hmap]; rfl
  have hp1 : s.indfPointer 0x01 = some s.fsr1 := by rw [indfPointer_spec hmap]; rfl
  have hcore : ∀ {f : FileAddr} {r : CoreReg}, f ≠ 0x00 → f ≠ 0x01 → coreRegMapDefault[f.toNat]? = some r →
      fread s f = .ok (readCore s r) ∧ fwrite s n f .noFlags v = writeCore n .noFlags v r :=
    fun h0 h1 hr => core_access hmap h0 h1 hr n .noFlags v
  obtain ⟨hindf0R, hindf0W⟩ := indf_access hp0 hn .noFlags v
  obtain ⟨hindf1R, hindf1W⟩ := indf_access hp1 hn .noFlags v
  obtain ⟨hpclR, hpclW⟩ := hcore (f := 0x02) (r := .pcl) (by decide) (by decide) rfl
  obtain ⟨hstatusR, hstatusW⟩ := hcore (f := 0x03) (r := .status) (by decide) (by decide) rfl
  obtain ⟨hfsr0lR, hfsr0lW⟩ := hcore (f := 0x04) (r := .fsr0l) (by decide) (by decide) rfl
  obtain ⟨hfsr0hR, hfsr0hW⟩ := hcore (f := 0x05) (r := .fsr0h) (by decide) (by decide) rfl
  obtain ⟨hfsr1lR, hfsr1lW⟩ := hcore (f := 0x06) (r := .fsr1l) (by decide) (by decide) rfl
  obtain ⟨hfsr1hR, hfsr1hW⟩ := hcore (f := 0x07) (r := .fsr1h) (by decide) (by decide) rfl
  obtain ⟨hbsrR, hbsrW⟩ := hcore (f := 0x08) (r := .bsr) (by decide) (by decide) rfl
  obtain ⟨hwregR, hwregW⟩ := hcore (f := 0x09) (r := .wreg) (by decide) (by decide) rfl
  obtain ⟨hpclathR, hpclathW⟩ := hcore (f := 0x0A) (r := .pclath) (by decide) (by decide) rfl
  obtain ⟨hintconR, hintconW⟩ := hcore (f := 0x0B) (r := .intcon) (by decide) (by decide) rfl
  refine ⟨hindf0R, hindf0W, hindf1R, hindf1W, ?_, ?_, ?_, ?_, ?_, ?_, ?_, ?_, ?_, ?_, ?_, ?_, ?_, ?_, hwregR, hwregW, ?_, ?_,
    ?_, ?_⟩
  · rw [hpclR, readCore, pclByte_eq_ofNat]
  · rw [hpclW, writeCore, pclathTarget_eq_ofNat]
  · rw [hstatusR, readCore, statusByte_eq_ofNat]
  · rw [hstatusW, writeCore, setStatus_eq_decide]
  · rw [hfsr0lR, readCore, lowField_eq_ofNat]
  · rw [hfsr0lW, writeCore, withLowByte_eq_ofNat]
  · rw [hfsr0hR, readCore, highByte_eq_ofNat]
  · rw [hfsr0hW, writeCore, withHighByte_eq_ofNat]
  · rw [hfsr1lR, readCore, lowField_eq_ofNat]
  · rw [hfsr1lW, writeCore, withLowByte_eq_ofNat]
  · rw [hfsr1hR, readCore, highByte_eq_ofNat]
  · rw [hfsr1hW, writeCore, withHighByte_eq_ofNat]
  · rw [hbsrR, readCore, zeros_append_eq_ofNat]
  · rw [hbsrW, writeCore, lowField_eq_ofNat]
  · rw [hpclathR, readCore, zeros_append_eq_ofNat]
  · rw [hpclathW, writeCore, lowField_eq_ofNat]
  · rw [hintconR, readCore, intconByte_eq_ofNat]
  · rw [hintconW, writeCore, setIntcon_eq_ofNat]

/-- Settles O13: the address is dispatched as STATUS, and the write is decided by the flag list; CLRF's list is Z alone. -/
theorem statusWritesByFlagList : Obligations.StatusWritesByFlagList := by
  refine ⟨fun s hmap => ?_, fun n a v hmap ha => ⟨?_, ?_, ?_⟩⟩
  · obtain ⟨-, hwrite⟩ := core_access (f := 0x03) (r := .status) hmap (by decide) (by decide) rfl s.advance .someFlags 0
    have hexec : exec (.clrf 0x03) s = .next ((s.advance.setStatusOpen 0).setFlags (zResult 0).flags) :=
      writeBack_f_of_fwrite hwrite
    obtain ⟨c, dc, z, hc, hdc, -, hopen⟩ := setStatusOpen_cases s.advance 0
    refine ⟨c, dc, hc, hdc, hexec.trans ?_⟩
    rw [hopen, advance_eq]
    rfl
  · exact memWrite_of_loc (dataLoc_status hmap ha) .noFlags v
  · exact memWrite_of_loc (dataLoc_status hmap ha) .allFlags v
  · obtain ⟨c, dc, z, hc, hdc, hz, hopen⟩ := setStatusOpen_cases n v
    exact ⟨c, dc, z, hc, hdc, hz, (memWrite_of_loc (dataLoc_status hmap ha) .someFlags v).trans (congrArg Except.ok hopen)⟩

/-- Settles O25: both instructions compute on W and C alone, where the second computation undoes the first. -/
theorem rotateRightUndoesRotateLeft : Obligations.RotateRightUndoesRotateLeft := by
  intro s hmap
  have hback : rr8 (rl8 s.w s.c).value (s.w.getLsbD 7) = cResult s.w s.c := rr8_rl8 s.w s.c
  have hpc : s.pc + 1 + 1 = pcPlus s 2 := by rw [pcPlus_two, BitVec.add_assoc]; rfl
  let t : State := (s.advance.setW (rl8 s.w s.c).value).setFlags (rl8 s.w s.c).flags
  refine ⟨t, _, byteOp_wreg hmap fun v => rl8 v s.c, byteOp_wreg (s := t) hmap fun v => rr8 v t.c, ?_⟩
  have hrotated : rr8 t.w t.c = cResult s.w s.c := hback
  simp only [hrotated, ← hpc]
  rfl

/-- Settles O14: PCL is read and written as a core register; the computed jump is ADDWF on it, and a skip bound for it is refused. -/
theorem pclReadsWritesAndComputedJump : Obligations.PclReadsWritesAndComputedJump := by
  intro s hmap
  have hloc : fileLoc s 0x02 = .ok (.core .pcl) := fileLoc_core hmap (by decide) (by decide) rfl
  have hread : fread s 0x02 = .ok (BitVec.ofNat 8 (s.pc.toNat + 1)) := by
    rw [fread_of_loc hloc, ← pclByte_eq_ofNat]
    rfl
  have hlow : BitVec.ofNat 8 (s.pc.toNat + 1) = BitVec.ofNat 8 (nextLow s) := by
    apply BitVec.eq_of_toNat_eq
    simp [nextLow]
  have hwrite : ∀ (n : State) (k : FlagKind) (v : Byte),
      fwrite s n 0x02 k v = .ok { n with pc := BitVec.ofNat 15 (256 * n.pclath.toNat + v.toNat) } := by
    intro n k v
    rw [fwrite_of_loc hloc, ← pclathTarget_eq_ofNat]
    rfl
  rw [hlow] at hread
  refine ⟨hread, fun n k v _ => hwrite n k v, ?_, ?_, skipOp_pcl hread hloc, skipOp_pcl hread hloc⟩
  · have hbyte : nextLow s < 256 := Nat.mod_lt _ (by decide)
    refine (byteOp_of_fread hread).trans ((writeBack_f_of_fwrite (hwrite _ _ _)).trans ?_)
    rw [add8_ofNat s.w hbyte, BitVec.toNat_ofNat]
    rfl
  · have hdirect : s.indfPointer 0x02 = none := by rw [indfPointer_spec hmap]; rfl
    have htarget : storeTarget (.addwf 0x02 .f) s = some (.core .pcl) := congrArg Except.toOption hloc
    have hfast : slowAccess (.addwf 0x02 .f) s = false := by
      simp only [slowAccess, indfInProgram, hdirect, Option.any_none]
    unfold cycles
    rw [htarget, hfast]
    rfl

/-- Settles O15: every register stands at its data address, where it is read and written as R38 to R40 and R47 say. -/
theorem specialRegistersReadAndWrite : Obligations.SpecialRegistersReadAndWrite := by
  intro s k v hn
  obtain ⟨htrisAR, htrisAW⟩ := sfr_access (a := 0x08C) hn rfl k v
  obtain ⟨htrisBR, htrisBW⟩ := sfr_access (a := 0x08D) hn rfl k v
  obtain ⟨htrisCR, htrisCW⟩ := sfr_access (a := 0x08E) hn rfl k v
  obtain ⟨hoptionR, hoptionW⟩ := sfr_access (a := 0x095) hn rfl k v
  obtain ⟨hpconR, hpconW⟩ := sfr_access (a := 0x096) hn rfl k v
  obtain ⟨hstatusR, hstatusW⟩ := sfr_access (a := 0xFE4) hn rfl k v
  obtain ⟨hwregR, hwregW⟩ := sfr_access (a := 0xFE5) hn rfl k v
  obtain ⟨hbsrR, hbsrW⟩ := sfr_access (a := 0xFE6) hn rfl k v
  obtain ⟨hpclathR, hpclathW⟩ := sfr_access (a := 0xFE7) hn rfl k v
  obtain ⟨hfsr0lR, hfsr0lW⟩ := sfr_access (a := 0xFE8) hn rfl k v
  obtain ⟨hfsr0hR, hfsr0hW⟩ := sfr_access (a := 0xFE9) hn rfl k v
  obtain ⟨hfsr1lR, hfsr1lW⟩ := sfr_access (a := 0xFEA) hn rfl k v
  obtain ⟨hfsr1hR, hfsr1hW⟩ := sfr_access (a := 0xFEB) hn rfl k v
  refine ⟨htrisAR, htrisBR, htrisCR, htrisAW, htrisBW, htrisCW, hoptionR, hoptionW, ?_, hpconW, ?_, ?_, hwregR, hwregW,
    ?_, ?_, ?_, ?_, ?_, ?_, ?_, ?_, ?_, ?_, ?_, ?_⟩
  · rw [hpconR, readLoc, pconByte_eq_ofNat]
  · rw [hstatusR, readLoc, readShadow, zeros_append_eq_ofNat]
  · rw [hstatusW, writeLoc, writeShadow, setShadow, lowField_eq_ofNat]
  · rw [hbsrR, readLoc, readShadow, zeros_append_eq_ofNat]
  · rw [hbsrW, writeLoc, writeShadow, setShadow, lowField_eq_ofNat]
  · rw [hpclathR, readLoc, readShadow, zeros_append_eq_ofNat]
  · rw [hpclathW, writeLoc, writeShadow, setShadow, lowField_eq_ofNat]
  · rw [hfsr0lR, readLoc, readShadow, lowField_eq_ofNat]
  · rw [hfsr0lW, writeLoc, writeShadow, setShadow, withLowByte_eq_ofNat]
  · rw [hfsr0hR, readLoc, readShadow, highByte_eq_ofNat]
  · rw [hfsr0hW, writeLoc, writeShadow, setShadow, withHighByte_eq_ofNat]
  · rw [hfsr1lR, readLoc, readShadow, lowField_eq_ofNat]
  · rw [hfsr1lW, writeLoc, writeShadow, setShadow, withLowByte_eq_ofNat]
  · rw [hfsr1hR, readLoc, readShadow, highByte_eq_ofNat]
  · rw [hfsr1hW, writeLoc, writeShadow, setShadow, withHighByte_eq_ofNat]

/-- Settles O16: the three registers stand at their data addresses and show the length and the head of the stack. -/
theorem stackRegistersShowTheStack : Obligations.StackRegistersShowTheStack := by
  intro s k v hn
  obtain ⟨hstkptrR, hstkptrW⟩ := sfr_access (a := 0xFED) hn rfl k v
  obtain ⟨htoslR, htoslW⟩ := sfr_access (a := 0xFEE) hn rfl k v
  obtain ⟨htoshR, htoshW⟩ := sfr_access (a := 0xFEF) hn rfl k v
  have hshown : ∀ {r : ProgAddr}, s.tos = r →
      memRead s 0xFEE = .ok (BitVec.ofNat 8 r.toNat) ∧ memRead s 0xFEF = .ok (BitVec.ofNat 8 (r.toNat / 256)) := by
    rintro r rfl
    rw [htoslR, htoshR, readLoc, readLoc, lowField_eq_ofNat, toshByte_eq_ofNat]
    exact ⟨rfl, rfl⟩
  refine ⟨fun hempty => ⟨?_, hshown ?_⟩, fun r rest hstack hfits => ⟨?_, hshown ?_⟩, hstkptrW, htoslW, htoshW⟩
  · rw [hstkptrR, readLoc, stkptrByte_eq_ofNat, hempty]
    rfl
  · rw [State.tos, hempty]
    rfl
  · have hcount : (s.stack.length + 31) % 32 = rest.length := by
      rw [hstack, List.length_cons] at hfits ⊢
      omega
    rw [hstkptrR, readLoc, stkptrByte_eq_ofNat, hcount]
  · rw [State.tos, hstack]
    rfl

end Sys2Proof.Machine
end
section
/-! SUPPORT. Sleep and the wake-up by a request: lines 2 to 4 of the machine step of a sleeping core (R46, R236, R248). -/

namespace Sys2Proof.Machine

section
variable {s u v : State} {e : EnvChoice}

/-- Line 2, written out: the flag bits on integers (R230 (a)). -/
theorem setInputs_dropChoice (s : State) : s.dropChoice.setInputs s.choice = afterInputs s := by
  have hflags : 0b0000#4 ++ BitVec.ofBool s.choice.setTmr0if ++ BitVec.ofBool s.choice.setIntf ++
      BitVec.ofBool s.choice.setIocif =
        BitVec.ofNat 7 (4 * s.choice.setTmr0if.toNat + 2 * s.choice.setIntf.toNat + s.choice.setIocif.toNat) := by
    rw [ofNat_append_ofBool, ofNat_append_ofBool, ofNat_append_ofBool]
    congr 1
    omega
  unfold State.setInputs afterInputs
  rw [hflags]
  rfl

/-- A time-out comes where the environment asks for one that can be delivered (R247). -/
theorem timeout_iff (s : State) :
    (s.choice.wdtTimeout && (afterInputs s).timeoutPossible) = true ↔ timeoutComes s := by
  unfold State.timeoutPossible
  rw [Bool.and_eq_true, Bool.and_eq_true, Bool.or_eq_true, decide_eq_true_eq, decide_eq_true_eq]
  exact Iff.rfl

/-- Lines 1 to 4 of a sleeping core without reset and time-out: it is woken by a request, or stays asleep (R46, R248). -/
theorem envPhase_asleep (hreset : s.choice.extReset = none) (htimeout : ¬timeoutComes s) (hasleep : s.sleeping = true) :
    envPhase s =
      if s.choice.wake && (afterInputs s).intReq then awakePhase s.choice { afterInputs s with sleeping := false }
      else .ends (.next (afterInputs s).tick) := by
  have hstill : (afterInputs s).sleeping = true := hasleep
  unfold envPhase
  rw [hreset]
  simp only [inputPhase]
  rw [setInputs_dropChoice, if_neg (mt (timeout_iff s).1 htimeout), if_pos hstill]

/-- INT_LATENCY_MAX has been reached exactly where the entry may wait no longer (R6, R236). -/
theorem entryOverdue_eq_false_iff (s : State) : s.entryOverdue = false ↔ entryMayWait s := by
  unfold State.entryOverdue entryMayWait
  cases s.cfg.intLatencyMax <;> simp

/-- An entry is possible with GIE set and a request (R235). -/
theorem entryPossible_of (hgie : s.gie = true) (hreq : s.intReq = true) : s.entryPossible = true := by
  unfold State.entryPossible
  rw [hgie, hreq]
  rfl

/-- Line 4 where an entry is possible and is put off (R236: "may"). -/
theorem awakePhase_of_wait (hposs : s.entryPossible = true) (he : e.intEntry = false) (hwait : s.entryOverdue = false) :
    awakePhase e s = .run (s.forCore (s.intWait + 1)) := by
  unfold awakePhase
  rw [if_pos hposs, he, hwait]
  rfl

/-- Line 4 where an entry is possible, is performed, and goes on (R235). -/
theorem awakePhase_of_entry (hposs : s.entryPossible = true) (htaken : (e.intEntry || s.entryOverdue) = true)
    (hentry : interruptEntry s = .ok v) : awakePhase e s = .run (v.forCore 0) := by
  unfold awakePhase
  rw [if_pos hposs, if_pos htaken, hentry]

/-- Line 4 where an entry is possible, is performed, and ends the step (R44, R235). -/
theorem awakePhase_of_entry_error {r : Result} (hposs : s.entryPossible = true)
    (htaken : (e.intEntry || s.entryOverdue) = true) (hentry : interruptEntry s = .error r) : awakePhase e s = .ends r := by
  unfold awakePhase
  rw [if_pos hposs, if_pos htaken, hentry]

/-- STATUS_SHAD as interrupt entry writes it, on integers (R235). -/
theorem statusForShadow_eq_ofNat (s : State) :
    s.statusForShadow = BitVec.ofNat 3 (4 * s.z.toNat + 2 * s.dc.toNat + s.c.toNat) := by
  unfold State.statusForShadow
  rw [ofBool_eq_ofNat s.z, ofNat_append_ofBool, ofNat_append_ofBool]
  congr 1
  omega

/-- Interrupt entry on a stack with room, with the counts of the core step that follows: what R235 writes. -/
theorem interruptEntry_of_room (h : s.stack.length < s.cfg.stackDepth) :
    ∃ v, interruptEntry s = .ok v ∧ v.forCore 0 = entered s := by
  unfold interruptEntry
  rw [push_of_room _ h]
  refine ⟨_, rfl, ?_⟩
  unfold State.saveContext entered
  cases hauto : s.cfg.autoContext
  · rfl
  · rw [← statusForShadow_eq_ofNat]
    rfl

/-- WHAT A WAKE-UP LEADS TO, when line 4 follows in a state with the counts, the stack and the configuration of the one before. -/
theorem wakesTo_of_awakePhase (h : envPhase s = awakePhase s.choice u) (hcfg : u.cfg = s.cfg) (hstack : u.stack = s.stack)
    (hwdt : u.wdt = s.wdt) (hwdtPre : u.wdtPre = s.wdtPre) (hwait : u.intWait = s.intWait) : WakesTo s u := by
  have hmay : entryMayWait u ↔ entryMayWait s := by
    unfold entryMayWait
    rw [hcfg, hwait]
  refine ⟨fun hno => ?_, fun hgie hreq hput hmayWait => ?_, fun hgie hreq htakes => ?_⟩
  · rw [h, awakePhase_of_no_entry _ (entryPossible_eq_false hno), ← hwdt, ← hwdtPre]
    rfl
  · have hnotDue : u.entryOverdue = false := (entryOverdue_eq_false_iff u).2 (hmay.2 hmayWait)
    rw [h, awakePhase_of_wait (entryPossible_of hgie hreq) hput hnotDue, ← hwdt, ← hwdtPre, ← hwait]
    rfl
  · have hposs := entryPossible_of hgie hreq
    have htaken : (s.choice.intEntry || u.entryOverdue) = true := by
      rw [Bool.or_eq_true]
      refine htakes.imp_right fun hdue => ?_
      rw [← Bool.not_eq_false, entryOverdue_eq_false_iff, hmay]
      exact hdue
    rw [← hcfg, ← hstack]
    refine ⟨fun hroom => ?_, fun hfull hstvren => ?_, fun hfull hstvren => ?_⟩
    · obtain ⟨v, hv, hentered⟩ := interruptEntry_of_room hroom
      rw [h, awakePhase_of_entry hposs htaken hv, hentered]
    · have hends := awakePhase_of_entry_error hposs htaken (interruptEntry_of_full hfull)
      rw [step_of_ends (h.trans hends), overflowResult, if_pos hstvren]
    · have hends := awakePhase_of_entry_error hposs htaken (interruptEntry_of_full hfull)
      rw [step_of_ends (h.trans hends), overflowResult, if_neg (by simp [hstvren])]

end

/-- Settles O60: without reset and time-out line 3 decides, and a wake-up leaves every count and the stack as they were. -/
theorem sleepKeepsStateUntilWokenByARequest : Obligations.SleepKeepsStateUntilWokenByARequest := by
  intro s hreset htimeout hasleep
  have hphase := envPhase_asleep hreset htimeout hasleep
  refine ⟨fun hstays => ?_, fun hwake hreq => ?_⟩
  · have hnot : (s.choice.wake && (afterInputs s).intReq) = false := Bool.and_eq_false_iff.2 hstays
    rw [hnot] at hphase
    exact step_of_ends hphase
  · have hwoken : (s.choice.wake && (afterInputs s).intReq) = true := Bool.and_eq_true_iff.2 ⟨hwake, hreq⟩
    rw [if_pos hwoken] at hphase
    exact wakesTo_of_awakePhase hphase rfl rfl rfl rfl rfl

end Sys2Proof.Machine
end
section
/-! SUPPORT. Memory as operands reach it (R61 to R64, R67, R73 to R78): program memory, which nothing writes, file operands, FSR
space region by region, unimplemented locations. -/

namespace Sys2Proof.Machine

/-! ### Program memory -/

/-- Program memory and the configuration, the parameters of a run, are those of `s` (R53, R78). -/
def SameParameters (s t : State) : Prop := t.prog = s.prog ∧ t.cfg = s.cfg

section
variable {s t u : State}

theorem SameParameters.trans (h : SameParameters s t) (h' : SameParameters t u) : SameParameters s u :=
  ⟨h'.1.trans h.1, h'.2.trans h.2⟩

/-- A device reset keeps the parameters, whatever raised it (R51, R261). -/
theorem deviceReset_sameParameters (k : ResetKind) (s : State) : SameParameters s (deviceReset k s) :=
  ⟨deviceReset_prog k s, deviceReset_cfg k s⟩

/-- An interrupt entry that goes on keeps the parameters (R235). -/
theorem interruptEntry_ok_sameParameters (h : interruptEntry s = .ok t) : SameParameters s t := by
  obtain ⟨u, hu, rfl⟩ := interruptEntry_ok h
  obtain ⟨-, rfl⟩ := push_ok hu
  exact ⟨State.saveContext_prog _, State.saveContext_cfg _⟩

/-- An interrupt entry that ends in a next state keeps the parameters: it reset the device (R44). -/
theorem interruptEntry_error_sameParameters (h : interruptEntry s = .error (.next t)) : SameParameters s t := by
  obtain ⟨-, ⟨-, hr⟩ | ⟨-, hr⟩⟩ := push_error (interruptEntry_error h)
  · injection hr with hr
    exact hr ▸ deviceReset_sameParameters .stackOverflow s
  · cases hr

/-- Line 4 keeps the parameters (R235). -/
theorem awakePhase_sameParameters (e : EnvChoice) (s : State) : (awakePhase e s).Leads (SameParameters s) := by
  unfold awakePhase
  split
  next =>
    split
    next =>
      split
      next t ht => exact (interruptEntry_ok_sameParameters ht).trans ⟨rfl, rfl⟩
      next r hr =>
        rintro t rfl
        exact interruptEntry_error_sameParameters hr
    next => exact ⟨rfl, rfl⟩
  next => exact ⟨rfl, rfl⟩

/-- Lines 2 to 4 keep the parameters (R236): the inputs and the wake-up write none. -/
theorem inputPhase_sameParameters (e : EnvChoice) (s : State) : (inputPhase e s).Leads (SameParameters s) := by
  unfold inputPhase
  extract_lets t
  split
  next =>
    split
    next => exact awakePhase_sameParameters e { t with nTO := false, sleeping := false }
    next =>
      rintro u ⟨⟩
      exact deviceReset_sameParameters .watchdog t
  next =>
    split
    next =>
      split
      next => exact awakePhase_sameParameters e { t with sleeping := false }
      next =>
        rintro u ⟨⟩
        exact ⟨rfl, rfl⟩
    next => exact awakePhase_sameParameters e t

/-- Lines 1 to 4 keep the parameters, whatever the environment chooses (R234, R236). -/
theorem envPhase_sameParameters (s : State) : (envPhase s).Leads (SameParameters s) := by
  unfold envPhase
  split
  next k _ =>
    rintro t ⟨⟩
    exact deviceReset_sameParameters k.kind s.dropChoice
  next => exact inputPhase_sameParameters s.choice s.dropChoice

/-- EVERY INSTRUCTION keeps the parameters: no instruction of the set writes program memory (R78). -/
theorem exec_sameParameters {i : Instr} (h : exec i s = .next t) : SameParameters s t := by
  rcases exec_frame h with hframe | hreset
  · obtain ⟨hprog, hcfg, -⟩ := hframe.parameters
    exact ⟨hprog, hcfg⟩
  · obtain ⟨-, hprog, hcfg, -⟩ := hreset.untouched
    exact ⟨hprog, hcfg⟩

/-- Every machine step keeps the parameters: lines 1 to 4 do, and so does the instruction of line 5 (R236). -/
theorem step_sameParameters (h : step s = .next t) : SameParameters s t := by
  have hphase := envPhase_sameParameters s
  cases hlines : envPhase s with
  | run u =>
    rw [step_of_run hlines] at h
    rw [hlines] at hphase
    obtain ⟨i, -, hi⟩ := coreStep_next h
    exact SameParameters.trans hphase (exec_sameParameters hi)
  | ends r =>
    rw [step_of_ends hlines] at h
    rw [hlines] at hphase
    exact hphase t h

variable {a : ProgAddr}

/-- A fetch below PM_WORDS (R78). -/
theorem pmRead_inside (h : a.toNat < s.cfg.pmWords) : pmRead s a = .ok (s.prog.read a.toNat) := if_pos h

/-- A fetch at or above PM_WORDS (R78). -/
theorem pmRead_outside (h : s.cfg.pmWords ≤ a.toNat) : pmRead s a = .error (.fetchOutsideProgram a) := if_neg (by omega)

/-- A core step at or above PM_WORDS has no instruction to execute (R17, R78). -/
theorem coreStep_outside (h : s.cfg.pmWords ≤ s.pc.toNat) : coreStep s = .refused (.fetchOutsideProgram s.pc) := by
  unfold coreStep fetch
  rw [pmRead_outside h]

end

/-- Settles O8: a fetch is bounded by PM_WORDS, and lines 1 to 4 and every instruction keep the parameters. -/
theorem programMemoryIsReadOnlyAndBounded : Obligations.ProgramMemoryIsReadOnlyAndBounded :=
  ⟨fun _ _ => ⟨pmRead_inside, pmRead_outside⟩, fun _ _ hrun hpc => (step_of_run hrun).trans (coreStep_outside hpc),
    fun _ _ => step_sameParameters⟩

/-! ### File operands -/

/-- A file operand at whose offset no INDFn stands is read and written at its data address (R63, R64). -/
theorem direct_access {s n : State} {f : FileAddr} (h : s.indfPointer f = none) (hn : n.cfg = s.cfg) (k : FlagKind) (v : Byte) :
    fread s f = memRead s (s.fileAddr f) ∧ fwrite s n f k v = memWrite n (s.fileAddr f) k v := by
  unfold fread fwrite memRead memWrite
  rw [fileLoc_direct h, hn]
  exact ⟨rfl, rfl⟩

/-- Settles O9: with the spec's map the pointer of operand 0x00 is FSR0, that of 0x01 is FSR1, and no other operand has one. -/
theorem fileOperandAccess : Obligations.FileOperandAccess := by
  intro s n f k v hmap hn
  have hpointer := indfPointer_spec hmap f
  refine ⟨?_, ?_, ?_, fun h0 h1 => ?_⟩
  · rw [fileAddr_toNat, Nat.mul_comm]
  · rintro rfl
    exact indf_access hpointer hn k v
  · rintro rfl
    exact indf_access hpointer hn k v
  · rw [if_neg h0, if_neg h1] at hpointer
    exact direct_access hpointer hn k v

/-! ### FSR space -/

/-- `Linear(p)` on integers (R76). -/
theorem linearAddr_eq_linearData (p : Ptr) : linearAddr p = linearData p.toNat := by
  have hindex : (p.toNat - 0x2000) / 80 * 128 + (0x20 + (p.toNat - 0x2000) % 80) =
      128 * ((p.toNat - 0x2000) / 80) + 0x20 + (p.toNat - 0x2000) % 80 := by omega
  exact congrArg (BitVec.ofNat 12) hindex

section
variable {s : State} {p : Ptr} {l : Loc}

/-- Reading through a pointer is reading the location it selects (R73). -/
theorem indRead_of_loc (h : indLoc s.cfg p = .ok l) : indRead s p = readLoc s l := by
  unfold indRead
  rw [h]

/-- Writing through a pointer is writing the location it selects (R74). -/
theorem indWrite_of_loc (h : indLoc s.cfg p = .ok l) (k : FlagKind) (v : Byte) : indWrite s p k v = writeLoc s l k v := by
  unfold indWrite
  rw [h]

/-- Reading through a pointer that selects nothing (R73). -/
theorem indRead_error {e : Refusal} (h : indLoc s.cfg p = .error e) : indRead s p = .error e := by
  unfold indRead
  rw [h]

/-- Writing through a pointer that selects nothing (R74). -/
theorem indWrite_error {e : Refusal} (h : indLoc s.cfg p = .error e) (k : FlagKind) (v : Byte) : indWrite s p k v = .error e := by
  unfold indWrite
  rw [h]

/-- The linear region selects the data address of R76, on integers. -/
theorem indLoc_linearData (c : Params) (hlo : 0x2000 ≤ p.toNat) (hhi : p.toNat ≤ 0x29AF) :
    indLoc c p = dataLoc c (linearData p.toNat) := by
  rw [indLoc_linear c hlo hhi, linearAddr_eq_linearData]

/-- With the spec's map, a pointer at one of the two INDF offsets of a bank selects INDFn itself (R50, R73, R74). -/
theorem indLoc_indf {c : Params} (hmap : hasSpecMap c) (hp : p.toNat ≤ 0x0FFF) (hoff : p.toNat % 128 ≤ 0x01) :
    indLoc c p = .ok (.core .indf0) ∨ indLoc c p = .ok (.core .indf1) := by
  have haddr : (BitVec.ofNat 12 p.toNat).toNat = p.toNat := by rw [BitVec.toNat_ofNat, Nat.mod_eq_of_lt (by omega)]
  have hcore : ∀ {r : CoreReg}, coreRegMapDefault[p.toNat % 128]? = some r → indLoc c p = .ok (.core r) := by
    intro r hr
    rw [indLoc_traditional c hp]
    exact dataLoc_core (bank_lt_nbanks hmap _) (by rw [haddr, coreAt_spec hmap, hr])
  obtain hzero | hone : p.toNat % 128 = 0 ∨ p.toNat % 128 = 1 := by omega
  · exact .inl (hcore (by rw [hzero]; rfl))
  · exact .inr (hcore (by rw [hone]; rfl))

/-- The low byte of a program word below PM_WORDS (R77). -/
theorem readLoc_programByte_inside {a : ProgAddr} (h : a.toNat < s.cfg.pmWords) :
    readLoc s (.programByte a) = .ok ((s.prog.read a.toNat).setWidth 8) := by
  rw [readLoc, if_pos h, lowField_eq_ofNat, BitVec.ofNat_toNat]

/-- No program word is read at or above PM_WORDS (R77). -/
theorem readLoc_programByte_outside {a : ProgAddr} (h : s.cfg.pmWords ≤ a.toNat) :
    readLoc s (.programByte a) = .error (.readOutsideProgram a) := by
  rw [readLoc, if_neg (by omega)]

/-- A write through a pointer into program memory has no effect (R77). -/
theorem indWrite_program (h : 0x8000 ≤ p.toNat) (k : FlagKind) (v : Byte) : indWrite s p k v = .ok s :=
  indWrite_of_loc (indLoc_program s.cfg h) k v

end

/-- Settles O10: in each region the pointer selects its location, which is then read. -/
theorem indirectReadByRegion : Obligations.IndirectReadByRegion := by
  intro s p
  refine ⟨fun hp hin => ?_, fun hp hout => ?_, fun hlo hhi => ?_, fun hmap hp hoff => ?_, fun hp _ => ?_, fun hp => ?_⟩
  · rw [indRead_of_loc (indLoc_program s.cfg hp), readLoc_programByte_inside hin]
  · rw [indRead_of_loc (indLoc_program s.cfg hp), readLoc_programByte_outside hout]
  · exact indRead_eq_memRead (indLoc_linearData s.cfg hlo hhi)
  · rcases indLoc_indf hmap hp hoff with hloc | hloc
    · exact indRead_of_loc hloc
    · exact indRead_of_loc hloc
  · exact indRead_eq_memRead (indLoc_traditional s.cfg hp)
  · exact indRead_error (indLoc_reserved s.cfg hp)

/-- A byte wraps to zero when 0xFF is incremented, and only then (R32, R135). -/
theorem isZero_add_one (v : Byte) : isZero (v + 1) = decide (v = 0xFF) := by
  rw [isZero, Bool.eq_iff_iff, beq_iff_eq, decide_eq_true_eq]
  bv_omega

/-- INCF of INDF0 with FSR0 in program memory: nothing is written, Z is (R77, R135). -/
theorem exec_incf_indf0_program {s : State} {v : Byte} (hmap : hasSpecMap s.cfg) (hp : 0x8000 ≤ s.fsr0.toNat)
    (hread : fread s 0x00 = .ok v) :
    exec (.incf 0x00 .f) s = .next { s with pc := pcPlus s 1, z := decide (v = 0xFF) } := by
  have hpointer : s.indfPointer 0x00 = some s.fsr0 := indfPointer_spec hmap 0x00
  have hwrite : fwrite s s.advance 0x00 (zResult (v + 1)).flags.kind (v + 1) = .ok s.advance := by
    rw [(indf_access hpointer (State.advance_cfg s) _ _).2, indWrite_program hp]
  have hexec : exec (.incf 0x00 .f) s = .next (s.advance.setFlags (zResult (v + 1)).flags) :=
    (byteOp_of_fread hread).trans (writeBack_f_of_fwrite hwrite)
  rw [hexec, ← isZero_add_one, pcPlus_one]
  rfl

/-- Settles O11: in each region the pointer selects its location, which is then written or ignores the write. -/
theorem indirectWriteByRegion : Obligations.IndirectWriteByRegion := by
  refine ⟨fun s p k v => ?_, fun s v hmap hp hread => exec_incf_indf0_program hmap hp hread⟩
  refine ⟨fun hp => ?_, fun hlo hhi => ?_, fun hmap hp hoff => ?_, fun hp _ => ?_, fun hp => ?_⟩
  · exact indWrite_program hp k v
  · exact indWrite_eq_memWrite (indLoc_linearData s.cfg hlo hhi)
  · rcases indLoc_indf hmap hp hoff with hloc | hloc
    · exact indWrite_of_loc hloc k v
    · exact indWrite_of_loc hloc k v
  · exact indWrite_eq_memWrite (indLoc_traditional s.cfg hp)
  · exact indWrite_error (indLoc_reserved s.cfg hp) k v

/-! ### Unimplemented locations -/

/-- The dispatch of a banked address that has neither RAM nor a special function register (R62, R67). -/
theorem dataLoc_unimplemented {c : Params} {a : DataAddr} (hb : a.toNat / 128 < c.nbanks) (hlo : 12 ≤ a.toNat % 128)
    (hhi : a.toNat % 128 < 0x70) (hgpr : hasGpr c a.toNat = false) (hsfr : ¬isSfrAddress a) :
    dataLoc c a = .ok .unimplemented := by
  rw [dataLoc_banked hb hlo hhi, if_neg (mt (inSfrWindow_iff hlo hhi).1 hsfr), if_neg (by simp [hgpr])]

/-- Settles O19: the address is dispatched as an unimplemented location. -/
theorem unimplementedLocationsReadZero : Obligations.UnimplementedLocationsReadZero := by
  intro s a k v hlo hhi hn hgpr hsfr
  have hloc : dataLoc s.cfg a = .ok .unimplemented :=
    dataLoc_unimplemented (bank_lt_of_nbanks hn a) (by omega) (by omega) hgpr hsfr
  exact ⟨memRead_of_loc hloc, memWrite_of_loc hloc k v⟩

end Sys2Proof.Machine
end
section
/-! SUPPORT. Decoding and encoding (R90 to R108): the unique row of a word, the formats of R92, and the round trips. -/

namespace Sys2Proof

/-! ### The row of a word (R96) -/

/-- Rows whose fixed bits differ somewhere both fix share no word. -/
theorem OpRow.disjoint_of_values {a b : OpRow} (h : a.value &&& b.mask ≠ b.value &&& a.mask) (w : InstrWord) :
    ¬(w &&& a.mask = a.value ∧ w &&& b.mask = b.value) := by
  rintro ⟨ha, hb⟩
  refine h ?_
  rw [← ha, ← hb, BitVec.and_assoc, BitVec.and_assoc, BitVec.and_comm a.mask]

/-- No word matches two rows (R96). -/
theorem opTable_disjoint :
    opTable.Pairwise fun a b => ∀ w : InstrWord, ¬(w &&& a.mask = a.value ∧ w &&& b.mask = b.value) := by
  have hvalues : opTable.Pairwise fun a b => a.value &&& b.mask ≠ b.value &&& a.mask := by decide
  exact hvalues.imp OpRow.disjoint_of_values

/-- The row that a word matches is the row that the decoder finds (R96). -/
theorem opRowOf_eq_some {r : OpRow} (hr : r ∈ opTable) {w : InstrWord} (hw : w &&& r.mask = r.value) :
    opRowOf w = some r := by
  obtain ⟨before, after, htable⟩ := List.append_of_mem hr
  have hdisjoint := opTable_disjoint
  rw [htable, List.pairwise_append] at hdisjoint
  obtain ⟨-, -, hearlier⟩ := hdisjoint
  refine List.find?_eq_some_iff_append.2 ⟨beq_iff_eq.2 hw, before, after, htable, fun a ha => ?_⟩
  have hnot : w &&& a.mask ≠ a.value := fun h => hearlier a ha r List.mem_cons_self w ⟨h, hw⟩
  simpa [OpRow.covers] using hnot

/-- A word decodes to what its row builds (R96). -/
theorem decode_of_row {r : OpRow} (hr : r ∈ opTable) {w : InstrWord} (hw : w &&& r.mask = r.value) :
    decode w = .ok (r.build w) := by
  unfold decode
  rw [opRowOf_eq_some hr hw]

/-- A word of no row is reserved (R108). -/
theorem decode_of_no_row {w : InstrWord} (h : ∀ r ∈ opTable, w &&& r.mask ≠ r.value) :
    decode w = .error (.reservedOpcode w) := by
  have hnone : opRowOf w = none := List.find?_eq_none.2 fun r hr => by simpa [OpRow.covers] using h r hr
  unfold decode
  rw [hnone]

/-- A word that decodes was built by the row it matches. -/
theorem exists_row_of_decode {w : InstrWord} {i : Instr} (h : decode w = .ok i) :
    ∃ r ∈ opTable, w &&& r.mask = r.value ∧ r.build w = i := by
  by_cases hrow : ∃ r ∈ opTable, w &&& r.mask = r.value
  · obtain ⟨r, hr, hw⟩ := hrow
    rw [decode_of_row hr hw] at h
    exact ⟨r, hr, hw, Except.ok.inj h⟩
  · have hnone : ∀ r ∈ opTable, w &&& r.mask ≠ r.value := fun r hr hw => hrow ⟨r, hr, hw⟩
    rw [decode_of_no_row hnone] at h
    cases h

/-- Settles O4: the rows fix different bits, so the first row found is the only one. -/
theorem decodeFollowsTheUniqueRow : Obligations.DecodeFollowsTheUniqueRow :=
  ⟨opTable_disjoint, fun _ => ⟨fun _ hr hw => decode_of_row hr hw, decode_of_no_row⟩⟩

/-! ### The formats of R92 -/

/-- A format: which bits of a word are fixed, and how its operands are read from a word and put into one. The laws say that reading and
putting undo each other and that only the fixed bits come from the word given to `word`. -/
structure WordFormat (N : Nat) where
  Operands : Type
  /-- The operand values that the format's fields hold. -/
  admits : Operands → Bool
  /-- Ones at the fixed bits. -/
  mask : BitVec N
  read : BitVec N → Operands
  /-- The word with the fixed bits of `w` and the given operands. -/
  word (w : BitVec N) (x : Operands) : BitVec N
  admits_read : ∀ w, admits (read w) = true
  read_word : ∀ w x, admits x = true → read (word w x) = x
  word_read : ∀ w, word w (read w) = w
  word_masked : ∀ w x, word (w &&& mask) x = word w x
  masked_word : ∀ w x, word w x &&& mask = w &&& mask

namespace WordFormat

/-- Putting another field below the `n` high bits changes none of these. -/
theorem extractLsb'_append_masked {n m : Nat} (w : BitVec (n + m)) (x : BitVec m) :
    (w.extractLsb' m n ++ x) &&& (BitVec.allOnes n ++ 0#m) = w &&& (BitVec.allOnes n ++ 0#m) := by
  conv_rhs => rw [← BitVec.extractLsb'_append_extractLsb' (x := w)]
  rw [Laws.masked_one, Laws.masked_one]

/-- The mask of the `n` high bits keeps them. -/
theorem extractLsb'_masked {n m : Nat} (w : BitVec (n + m)) :
    (w &&& (BitVec.allOnes n ++ 0#m)).extractLsb' m n = w.extractLsb' m n := by
  rw [BitVec.extractLsb'_and, BitVec.extractLsb'_append_eq_left, BitVec.and_allOnes]

/-- Every bit is fixed: INH and TRIS. -/
def fixed (n : Nat) : WordFormat n where
  Operands := Unit
  admits _ := true
  mask := BitVec.allOnes n
  read _ := ()
  word w _ := w
  admits_read _ := rfl
  read_word _ _ _ := rfl
  word_read _ := rfl
  word_masked _ _ := BitVec.and_allOnes
  masked_word _ _ := rfl

/-- One field of `m` bits below `n` fixed bits: FILE, CLRW, LIT8, LIT5, LIT7, LIT11. -/
def oneField (n m : Nat) : WordFormat (n + m) where
  Operands := BitVec m
  admits _ := true
  mask := BitVec.allOnes n ++ 0#m
  read w := w.extractLsb' 0 m
  word w x := w.extractLsb' m n ++ x
  admits_read _ := rfl
  read_word _ _ _ := BitVec.extractLsb'_append_eq_right
  word_read _ := BitVec.extractLsb'_append_extractLsb'
  word_masked w x := congrArg (· ++ x) (extractLsb'_masked w)
  masked_word w x := extractLsb'_append_masked w x

theorem extractLsb'_middle {n m l : Nat} (a : BitVec n) (x : BitVec m) (y : BitVec l) :
    (a ++ x ++ y).extractLsb' l m = x := by
  rw [BitVec.extractLsb'_append_eq_of_le (Nat.le_refl l), Nat.sub_self, BitVec.extractLsb'_append_eq_right]

theorem extractLsb'_high {n m l : Nat} (a : BitVec n) (x : BitVec m) (y : BitVec l) :
    (a ++ x ++ y).extractLsb' (m + l) n = a := by
  rw [BitVec.extractLsb'_append_eq_of_le (Nat.le_add_left l m), Nat.add_sub_cancel, BitVec.extractLsb'_append_eq_left]

/-- A word is its three parts put together. -/
theorem extractLsb'_append_three {n m l : Nat} (w : BitVec (n + m + l)) :
    w.extractLsb' (m + l) n ++ w.extractLsb' l m ++ w.extractLsb' 0 l = w := by
  rw [BitVec.extractLsb'_append_extractLsb'_eq_extractLsb' (Nat.add_comm m l), BitVec.extractLsb'_append_extractLsb']

/-- A field of `m` bits and one of `l` bits below `n` fixed bits: BIT, and the bits of BYTE, FSR6, FSRMM. -/
def twoFields (n m l : Nat) : WordFormat (n + m + l) where
  Operands := BitVec m × BitVec l
  admits _ := true
  mask := BitVec.allOnes n ++ 0#m ++ 0#l
  read w := (w.extractLsb' l m, w.extractLsb' 0 l)
  word w x := w.extractLsb' (m + l) n ++ x.1 ++ x.2
  admits_read _ := rfl
  read_word _ _ _ := Prod.ext (extractLsb'_middle _ _ _) BitVec.extractLsb'_append_eq_right
  word_read := extractLsb'_append_three
  word_masked w x := by
    rw [BitVec.extractLsb'_and, extractLsb'_high, BitVec.and_allOnes]
  masked_word w x := by
    conv_rhs => rw [← extractLsb'_append_three w]
    rw [Laws.masked_two, Laws.masked_two]

/-- A format whose operands stand for the fields of `F`, each admitted operand for its own bits. -/
def via {N : Nat} (F : WordFormat N) {α : Type} (admits : α → Bool) (read : BitVec N → α) (bits : α → F.Operands)
    (admits_read : ∀ w, admits (read w) = true) (bits_admitted : ∀ x, F.admits (bits x) = true)
    (bits_read : ∀ w, bits (read w) = F.read w)
    (bits_injective : ∀ x y, admits x = true → admits y = true → bits x = bits y → x = y) : WordFormat N where
  Operands := α
  admits := admits
  mask := F.mask
  read := read
  word w x := F.word w (bits x)
  admits_read := admits_read
  read_word w x hx := by
    refine bits_injective _ _ (admits_read _) hx ?_
    rw [bits_read, F.read_word w _ (bits_admitted x)]
  word_read w := by rw [bits_read, F.word_read]
  word_masked w x := F.word_masked w (bits x)
  masked_word w x := F.masked_word w (bits x)

end WordFormat

/-! ### Operands and their bits (R94, R100 to R102) -/

/-- A field of one bit, by the test of that bit. -/
theorem extractLsb'_one_eq_ite (w : InstrWord) (i : Nat) : w.extractLsb' i 1 = if w.getLsbD i then 1#1 else 0#1 := by
  rw [BitVec.getLsbD_eq_extractLsb']
  generalize w.extractLsb' i 1 = x
  revert x
  decide

theorem Dest.bit_injective {a b : Dest} : a.bit = b.bit → a = b := by
  cases a <;> cases b <;> decide

theorem FsrSel.bit_injective {a b : FsrSel} : a.bit = b.bit → a = b := by
  cases a <;> cases b <;> decide

theorem FsrMode.bits_injective {a b : FsrMode} : a.bits = b.bits → a = b := by
  cases a <;> cases b <;> decide

theorem fieldD_bit (w : InstrWord) : (fieldD w).bit = w.extractLsb' 7 1 := by
  rw [extractLsb'_one_eq_ite, fieldD, apply_ite Dest.bit]
  rfl

theorem fieldN6_bit (w : InstrWord) : (fieldN6 w).bit = w.extractLsb' 6 1 := by
  rw [extractLsb'_one_eq_ite, fieldN6, apply_ite FsrSel.bit]
  rfl

theorem fieldN2_bit (w : InstrWord) : (fieldN2 w).bit = w.extractLsb' 2 1 := by
  rw [extractLsb'_one_eq_ite, fieldN2, apply_ite FsrSel.bit]
  rfl

theorem fieldMm_bits (w : InstrWord) : (fieldMm w).bits = w.extractLsb' 0 2 := by
  have hsplit : w.extractLsb' 1 1 ++ w.extractLsb' 0 1 = w.extractLsb' 0 2 :=
    BitVec.extractLsb'_append_extractLsb'_eq_extractLsb' rfl
  rw [← hsplit, extractLsb'_one_eq_ite, extractLsb'_one_eq_ite, fieldMm]
  cases w.getLsbD 1 <;> cases w.getLsbD 0 <;> rfl

theorem inSigned9_iff {k : Int} : inSigned9 k = true ↔ -256 ≤ k ∧ k ≤ 255 := by
  rw [inSigned9, Bool.and_eq_true, decide_eq_true_iff, decide_eq_true_iff]

theorem inSigned6_iff {k : Int} : inSigned6 k = true ↔ -32 ≤ k ∧ k ≤ 31 := by
  rw [inSigned6, Bool.and_eq_true, decide_eq_true_iff, decide_eq_true_iff]

/-- Nine bits hold every number in the range of R100. -/
theorem toInt_ofInt_of_inSigned9 {k : Int} (h : inSigned9 k = true) : (BitVec.ofInt 9 k).toInt = k := by
  obtain ⟨hlo, hhi⟩ := inSigned9_iff.1 h
  exact BitVec.toInt_ofInt_eq_self (by decide) hlo (Int.lt_add_one_of_le hhi)

/-- Six bits hold every number in the range of R101. -/
theorem toInt_ofInt_of_inSigned6 {k : Int} (h : inSigned6 k = true) : (BitVec.ofInt 6 k).toInt = k := by
  obtain ⟨hlo, hhi⟩ := inSigned6_iff.1 h
  exact BitVec.toInt_ofInt_eq_self (by decide) hlo (Int.lt_add_one_of_le hhi)

theorem ofInt9_injective {x y : Int} (hx : inSigned9 x = true) (hy : inSigned9 y = true)
    (h : BitVec.ofInt 9 x = BitVec.ofInt 9 y) : x = y := by
  rw [← toInt_ofInt_of_inSigned9 hx, h, toInt_ofInt_of_inSigned9 hy]

theorem ofInt6_injective {x y : Int} (hx : inSigned6 x = true) (hy : inSigned6 y = true)
    (h : BitVec.ofInt 6 x = BitVec.ofInt 6 y) : x = y := by
  rw [← toInt_ofInt_of_inSigned6 hx, h, toInt_ofInt_of_inSigned6 hy]

theorem inSigned9_fieldK9 (w : InstrWord) : inSigned9 (fieldK9 w) = true :=
  inSigned9_iff.2 ⟨BitVec.le_toInt _, Int.le_of_lt_add_one BitVec.toInt_lt⟩

theorem inSigned6_fieldK6 (w : InstrWord) : inSigned6 (fieldK6 w) = true :=
  inSigned6_iff.2 ⟨BitVec.le_toInt _, Int.le_of_lt_add_one BitVec.toInt_lt⟩

/-- BYTE (R93, R94). -/
def byteFormat : WordFormat 14 :=
  (WordFormat.twoFields 6 1 7).via (fun _ => true) (fun w => (fieldF w, fieldD w)) (fun x => (x.2.bit, x.1))
    (fun _ => rfl) (fun _ => rfl) (fun w => Prod.ext (fieldD_bit w) rfl)
    (fun _ _ _ _ h => Prod.ext (congrArg Prod.snd h) (Dest.bit_injective (congrArg Prod.fst h)))

/-- LIT9 (R100). -/
def lit9Format : WordFormat 14 :=
  (WordFormat.oneField 5 9).via inSigned9 fieldK9 (BitVec.ofInt 9)
    inSigned9_fieldK9 (fun _ => rfl) (fun _ => BitVec.ofInt_toInt)
    (fun _ _ => ofInt9_injective)

/-- FSR6 (R101). -/
def fsr6Format : WordFormat 14 :=
  (WordFormat.twoFields 7 1 6).via (fun x => inSigned6 x.2) (fun w => (fieldN6 w, fieldK6 w))
    (fun x => (x.1.bit, BitVec.ofInt 6 x.2))
    inSigned6_fieldK6 (fun _ => rfl) (fun w => Prod.ext (fieldN6_bit w) BitVec.ofInt_toInt)
    (fun _ _ hx hy h => Prod.ext (FsrSel.bit_injective (congrArg Prod.fst h)) (ofInt6_injective hx hy (congrArg Prod.snd h)))

/-- FSRMM (R102). -/
def fsrMmFormat : WordFormat 14 :=
  (WordFormat.twoFields 11 1 2).via (fun _ => true) (fun w => (fieldN2 w, fieldMm w)) (fun x => (x.1.bit, x.2.bits))
    (fun _ => rfl) (fun _ => rfl) (fun w => Prod.ext (fieldN2_bit w) (fieldMm_bits w))
    (fun _ _ _ _ h => Prod.ext (FsrSel.bit_injective (congrArg Prod.fst h)) (FsrMode.bits_injective (congrArg Prod.snd h)))

/-! ### The instructions of each row -/

/-- The instructions of a format: one for every operand. -/
abbrev InstrFamily := (F : WordFormat 14) × (F.Operands → Instr)

/-- The row decodes and encodes the instructions of the family in its format (R92). -/
structure OpRow.Describes (r : OpRow) (p : InstrFamily) : Prop where
  mask_eq : r.mask = p.1.mask
  build_eq : ∀ w, r.build w = p.2 (p.1.read w)
  encode_eq : ∀ x, encode (p.2 x) = p.1.word r.value x
  wellFormed_eq : ∀ x, (p.2 x).wellFormed = p.1.admits x

open WordFormat in
/-- The instructions of every row, in the order of `opTable`. -/
def families : List InstrFamily :=
  [ ⟨byteFormat, fun x => .addwf x.1 x.2⟩
  , ⟨byteFormat, fun x => .addwfc x.1 x.2⟩
  , ⟨byteFormat, fun x => .andwf x.1 x.2⟩
  , ⟨byteFormat, fun x => .asrf x.1 x.2⟩
  , ⟨byteFormat, fun x => .lslf x.1 x.2⟩
  , ⟨byteFormat, fun x => .lsrf x.1 x.2⟩
  , ⟨oneField 7 7, .clrf⟩
  , ⟨oneField 12 2, .clrw⟩
  , ⟨byteFormat, fun x => .comf x.1 x.2⟩
  , ⟨byteFormat, fun x => .decf x.1 x.2⟩
  , ⟨byteFormat, fun x => .incf x.1 x.2⟩
  , ⟨byteFormat, fun x => .iorwf x.1 x.2⟩
  , ⟨byteFormat, fun x => .movf x.1 x.2⟩
  , ⟨oneField 7 7, .movwf⟩
  , ⟨byteFormat, fun x => .rlf x.1 x.2⟩
  , ⟨byteFormat, fun x => .rrf x.1 x.2⟩
  , ⟨byteFormat, fun x => .subwf x.1 x.2⟩
  , ⟨byteFormat, fun x => .subwfb x.1 x.2⟩
  , ⟨byteFormat, fun x => .swapf x.1 x.2⟩
  , ⟨byteFormat, fun x => .xorwf x.1 x.2⟩
  , ⟨byteFormat, fun x => .decfsz x.1 x.2⟩
  , ⟨byteFormat, fun x => .incfsz x.1 x.2⟩
  , ⟨twoFields 4 3 7, fun x => .bcf x.2 x.1⟩
  , ⟨twoFields 4 3 7, fun x => .bsf x.2 x.1⟩
  , ⟨twoFields 4 3 7, fun x => .btfsc x.2 x.1⟩
  , ⟨twoFields 4 3 7, fun x => .btfss x.2 x.1⟩
  , ⟨oneField 6 8, .addlw⟩
  , ⟨oneField 6 8, .andlw⟩
  , ⟨oneField 6 8, .iorlw⟩
  , ⟨oneField 9 5, .movlb⟩
  , ⟨oneField 7 7, .movlp⟩
  , ⟨oneField 6 8, .movlw⟩
  , ⟨oneField 6 8, .sublw⟩
  , ⟨oneField 6 8, .xorlw⟩
  , ⟨lit9Format, .bra⟩
  , ⟨fixed 14, fun _ => .brw⟩
  , ⟨oneField 3 11, .call⟩
  , ⟨fixed 14, fun _ => .callw⟩
  , ⟨oneField 3 11, .goto⟩
  , ⟨fixed 14, fun _ => .retfie⟩
  , ⟨oneField 6 8, .retlw⟩
  , ⟨fixed 14, fun _ => .ret⟩
  , ⟨fixed 14, fun _ => .clrwdt⟩
  , ⟨fixed 14, fun _ => .nop⟩
  , ⟨fixed 14, fun _ => .option⟩
  , ⟨fixed 14, fun _ => .reset⟩
  , ⟨fixed 14, fun _ => .sleep⟩
  , ⟨fixed 14, fun _ => .tris5⟩
  , ⟨fixed 14, fun _ => .tris6⟩
  , ⟨fixed 14, fun _ => .tris7⟩
  , ⟨fsr6Format, fun x => .addfsr x.1 x.2⟩
  , ⟨fsrMmFormat, fun x => .moviwMode x.1 x.2⟩
  , ⟨fsr6Format, fun x => .moviwIndexed x.1 x.2⟩
  , ⟨fsrMmFormat, fun x => .movwiMode x.1 x.2⟩
  , ⟨fsr6Format, fun x => .movwiIndexed x.1 x.2⟩ ]

/-- Every row of the table decodes and encodes the instructions listed for it (R92, R105). -/
theorem opTable_describes : List.Forall₂ OpRow.Describes opTable families := by
  repeat refine .cons ⟨rfl, fun _ => rfl, fun _ => rfl, fun _ => rfl⟩ ?_
  exact .nil

/-- Every instruction is of a family. -/
theorem exists_family (i : Instr) : ∃ p ∈ families, ∃ x, i = p.2 x := by
  cases i with
  | addwf f d => exact ⟨_, List.mem_of_getElem? (i := 0) rfl, (f, d), rfl⟩
  | addwfc f d => exact ⟨_, List.mem_of_getElem? (i := 1) rfl, (f, d), rfl⟩
  | andwf f d => exact ⟨_, List.mem_of_getElem? (i := 2) rfl, (f, d), rfl⟩
  | asrf f d => exact ⟨_, List.mem_of_getElem? (i := 3) rfl, (f, d), rfl⟩
  | lslf f d => exact ⟨_, List.mem_of_getElem? (i := 4) rfl, (f, d), rfl⟩
  | lsrf f d => exact ⟨_, List.mem_of_getElem? (i := 5) rfl, (f, d), rfl⟩
  | clrf f => exact ⟨_, List.mem_of_getElem? (i := 6) rfl, f, rfl⟩
  | clrw x => exact ⟨_, List.mem_of_getElem? (i := 7) rfl, x, rfl⟩
  | comf f d => exact ⟨_, List.mem_of_getElem? (i := 8) rfl, (f, d), rfl⟩
  | decf f d => exact ⟨_, List.mem_of_getElem? (i := 9) rfl, (f, d), rfl⟩
  | incf f d => exact ⟨_, List.mem_of_getElem? (i := 10) rfl, (f, d), rfl⟩
  | iorwf f d => exact ⟨_, List.mem_of_getElem? (i := 11) rfl, (f, d), rfl⟩
  | movf f d => exact ⟨_, List.mem_of_getElem? (i := 12) rfl, (f, d), rfl⟩
  | movwf f => exact ⟨_, List.mem_of_getElem? (i := 13) rfl, f, rfl⟩
  | rlf f d => exact ⟨_, List.mem_of_getElem? (i := 14) rfl, (f, d), rfl⟩
  | rrf f d => exact ⟨_, List.mem_of_getElem? (i := 15) rfl, (f, d), rfl⟩
  | subwf f d => exact ⟨_, List.mem_of_getElem? (i := 16) rfl, (f, d), rfl⟩
  | subwfb f d => exact ⟨_, List.mem_of_getElem? (i := 17) rfl, (f, d), rfl⟩
  | swapf f d => exact ⟨_, List.mem_of_getElem? (i := 18) rfl, (f, d), rfl⟩
  | xorwf f d => exact ⟨_, List.mem_of_getElem? (i := 19) rfl, (f, d), rfl⟩
  | decfsz f d => exact ⟨_, List.mem_of_getElem? (i := 20) rfl, (f, d), rfl⟩
  | incfsz f d => exact ⟨_, List.mem_of_getElem? (i := 21) rfl, (f, d), rfl⟩
  | bcf f b => exact ⟨_, List.mem_of_getElem? (i := 22) rfl, (b, f), rfl⟩
  | bsf f b => exact ⟨_, List.mem_of_getElem? (i := 23) rfl, (b, f), rfl⟩
  | btfsc f b => exact ⟨_, List.mem_of_getElem? (i := 24) rfl, (b, f), rfl⟩
  | btfss f b => exact ⟨_, List.mem_of_getElem? (i := 25) rfl, (b, f), rfl⟩
  | addlw k => exact ⟨_, List.mem_of_getElem? (i := 26) rfl, k, rfl⟩
  | andlw k => exact ⟨_, List.mem_of_getElem? (i := 27) rfl, k, rfl⟩
  | iorlw k => exact ⟨_, List.mem_of_getElem? (i := 28) rfl, k, rfl⟩
  | movlb k => exact ⟨_, List.mem_of_getElem? (i := 29) rfl, k, rfl⟩
  | movlp k => exact ⟨_, List.mem_of_getElem? (i := 30) rfl, k, rfl⟩
  | movlw k => exact ⟨_, List.mem_of_getElem? (i := 31) rfl, k, rfl⟩
  | sublw k => exact ⟨_, List.mem_of_getElem? (i := 32) rfl, k, rfl⟩
  | xorlw k => exact ⟨_, List.mem_of_getElem? (i := 33) rfl, k, rfl⟩
  | bra k => exact ⟨_, List.mem_of_getElem? (i := 34) rfl, k, rfl⟩
  | brw => exact ⟨_, List.mem_of_getElem? (i := 35) rfl, (), rfl⟩
  | call k => exact ⟨_, List.mem_of_getElem? (i := 36) rfl, k, rfl⟩
  | callw => exact ⟨_, List.mem_of_getElem? (i := 37) rfl, (), rfl⟩
  | goto k => exact ⟨_, List.mem_of_getElem? (i := 38) rfl, k, rfl⟩
  | retfie => exact ⟨_, List.mem_of_getElem? (i := 39) rfl, (), rfl⟩
  | retlw k => exact ⟨_, List.mem_of_getElem? (i := 40) rfl, k, rfl⟩
  | ret => exact ⟨_, List.mem_of_getElem? (i := 41) rfl, (), rfl⟩
  | clrwdt => exact ⟨_, List.mem_of_getElem? (i := 42) rfl, (), rfl⟩
  | nop => exact ⟨_, List.mem_of_getElem? (i := 43) rfl, (), rfl⟩
  | option => exact ⟨_, List.mem_of_getElem? (i := 44) rfl, (), rfl⟩
  | reset => exact ⟨_, List.mem_of_getElem? (i := 45) rfl, (), rfl⟩
  | sleep => exact ⟨_, List.mem_of_getElem? (i := 46) rfl, (), rfl⟩
  | tris5 => exact ⟨_, List.mem_of_getElem? (i := 47) rfl, (), rfl⟩
  | tris6 => exact ⟨_, List.mem_of_getElem? (i := 48) rfl, (), rfl⟩
  | tris7 => exact ⟨_, List.mem_of_getElem? (i := 49) rfl, (), rfl⟩
  | addfsr n k => exact ⟨_, List.mem_of_getElem? (i := 50) rfl, (n, k), rfl⟩
  | moviwMode n mm => exact ⟨_, List.mem_of_getElem? (i := 51) rfl, (n, mm), rfl⟩
  | moviwIndexed n k => exact ⟨_, List.mem_of_getElem? (i := 52) rfl, (n, k), rfl⟩
  | movwiMode n mm => exact ⟨_, List.mem_of_getElem? (i := 53) rfl, (n, mm), rfl⟩
  | movwiIndexed n k => exact ⟨_, List.mem_of_getElem? (i := 54) rfl, (n, k), rfl⟩

/-! ### The round trips -/

/-- The value of a row has ones only at bits that the row fixes. -/
theorem opTable_value_masked : ∀ r ∈ opTable, r.value &&& r.mask = r.value := by decide

/-- Of two lists related element by element, each element of the first has a partner in the second. -/
theorem exists_of_mem_forall₂ {α β : Type*} {R : α → β → Prop} {l : List α} {m : List β}
    (h : List.Forall₂ R l m) {a : α} (ha : a ∈ l) : ∃ b ∈ m, R a b := by
  induction h with
  | nil => cases ha
  | @cons c d l m hcd _ ih =>
    rcases List.mem_cons.1 ha with rfl | ha
    · exact ⟨d, List.mem_cons_self, hcd⟩
    · obtain ⟨b, hb, hab⟩ := ih ha
      exact ⟨b, List.mem_cons_of_mem d hb, hab⟩

section
variable {r : OpRow} {p : InstrFamily}

/-- The word of an instruction matches its row. -/
theorem OpRow.Describes.encode_matches (h : r.Describes p) (hr : r ∈ opTable) (x : p.1.Operands) :
    encode (p.2 x) &&& r.mask = r.value := by
  rw [h.encode_eq, h.mask_eq, p.1.masked_word, ← h.mask_eq, opTable_value_masked r hr]

/-- From the word of an instruction whose operands fit, its row builds the instruction. -/
theorem OpRow.Describes.build_encode (h : r.Describes p) {x : p.1.Operands} (hx : (p.2 x).wellFormed = true) :
    r.build (encode (p.2 x)) = p.2 x := by
  rw [h.build_eq, h.encode_eq, p.1.read_word _ _ (by rw [← h.wellFormed_eq, hx])]

/-- What a row builds has operands that fit. -/
theorem OpRow.Describes.build_wellFormed (h : r.Describes p) (w : InstrWord) : (r.build w).wellFormed = true := by
  rw [h.build_eq, h.wellFormed_eq, p.1.admits_read]

/-- The word of what a row builds from a matching word is that word. -/
theorem OpRow.Describes.encode_build (h : r.Describes p) {w : InstrWord} (hw : w &&& r.mask = r.value) :
    encode (r.build w) = w := by
  rw [h.build_eq, h.encode_eq, ← hw, h.mask_eq, p.1.word_masked, p.1.word_read]

end

/-- Decoding undoes encoding (R96, R105). -/
theorem decode_encode {i : Instr} (hi : i.wellFormed = true) : decode (encode i) = .ok i := by
  obtain ⟨p, hp, x, rfl⟩ := exists_family i
  obtain ⟨r, hr, hrp⟩ := exists_of_mem_forall₂ opTable_describes.flip hp
  have hdescribes : r.Describes p := hrp
  rw [decode_of_row hr (hdescribes.encode_matches hr x), hdescribes.build_encode hi]

/-- The host's reading of a word's 14 bits is the decoder's (R90). -/
theorem decodeTableWord_toNat (w : InstrWord) : decodeTableWord 16 w.toNat = (decode w).toOption := by
  have hmod : w.toNat % 2 ^ 16 = w.toNat := Nat.mod_eq_of_lt (Nat.lt_trans w.isLt (by decide))
  have hdecode : decodeNat w.toNat = decode w := by
    unfold decodeNat
    rw [if_pos w.isLt, BitVec.ofNat_toNat, BitVec.setWidth_eq]
  unfold decodeTableWord
  rw [hmod, hdecode]
  cases decode w <;> rfl

/-- Settles O2: each row describes its instructions in its format, and the format reads back the operands it wrote. -/
theorem decodeOfEncodeGivesTheInstruction : Obligations.DecodeOfEncodeGivesTheInstruction := by
  intro i hi
  refine ⟨decode_encode hi, ?_⟩
  rw [decodeTableWord_toNat, decode_encode hi]
  rfl

/-- Settles O3: the row that a word matches fixes some of its bits, and its format writes the others back. -/
theorem encodeOfDecodeGivesTheWord : Obligations.EncodeOfDecodeGivesTheWord := by
  intro w i hi
  obtain ⟨r, hr, hw, rfl⟩ := exists_row_of_decode hi
  obtain ⟨p, -, hdescribes⟩ := exists_of_mem_forall₂ opTable_describes hr
  exact ⟨hdescribes.build_wellFormed w, hdescribes.encode_build hw⟩

/-- Settles O1, by running the decoder on the words. -/
theorem sampleWordsDecode : Obligations.SampleWordsDecode := by
  unfold Obligations.SampleWordsDecode
  decide

end Sys2Proof
end
section
/-! SUPPORT. The reserved words (R108): every row of the opcode table is a range of words, and the rows' ranges and the five reserved
ranges lie end to end. -/

namespace Sys2Proof

/-- The last word of a row: all bits that its mask leaves open are ones. -/
def OpRow.lastWord (r : OpRow) : Nat := r.value.toNat + (~~~r.mask).toNat

/-- A mask of high bits selects the multiples of `2 ^ m`. -/
theorem toNat_and_highBits {n : Nat} (w : BitVec n) (m : Nat) :
    (w &&& BitVec.allOnes n <<< m).toNat = w.toNat / 2 ^ m * 2 ^ m := by
  have hle : w.toNat / 2 ^ m * 2 ^ m ≤ w.toNat := Nat.div_mul_le_self _ _
  rw [← BitVec.shiftLeft_ushiftRight, BitVec.toNat_shiftLeft, BitVec.toNat_ushiftRight, Nat.shiftLeft_eq,
    Nat.shiftRight_eq_div_pow, Nat.mod_eq_of_lt (by omega)]

/-- The bits that a row's mask leaves open are its `m` low ones, zeros in its value (R92, R105). -/
theorem opTable_mask : ∀ r ∈ opTable, ∃ m < 14, r.mask = BitVec.allOnes 14 <<< m ∧ (~~~r.mask).toNat + 1 = 2 ^ m ∧
    r.value.toNat % 2 ^ m = 0 := by decide

/-- The words of a row are those from its value to its last word. -/
theorem and_mask_eq_iff_range {r : OpRow} (hr : r ∈ opTable) (w : InstrWord) :
    w &&& r.mask = r.value ↔ r.value.toNat ≤ w.toNat ∧ w.toNat ≤ r.lastWord := by
  obtain ⟨m, -, hmask, hlast, hvalue⟩ := opTable_mask r hr
  have hstart : r.value.toNat = r.value.toNat / 2 ^ m * 2 ^ m := (Nat.div_mul_cancel (Nat.dvd_of_mod_eq_zero hvalue)).symm
  have hpos : 0 < 2 ^ m := Nat.two_pow_pos m
  rw [← BitVec.toNat_inj, OpRow.lastWord, hmask, toNat_and_highBits, ← hmask]
  generalize 2 ^ m = k at *
  generalize hq : r.value.toNat / k = q at *
  rw [hstart, Nat.mul_left_inj hpos.ne', Nat.div_eq_iff hpos]
  omega

/-- The ranges of R108, first and last word. -/
def reservedRanges : List (Nat × Nat) := [(0x0002, 0x0007), (0x000C, 0x000F), (0x0040, 0x0061), (0x0068, 0x007F), (0x0104, 0x017F)]

/-- `isReservedWord` as membership in one of the ranges. -/
theorem isReservedWord_iff {n : Nat} : isReservedWord n = true ↔ ∃ g ∈ reservedRanges, g.1 ≤ n ∧ n ≤ g.2 := by
  simp [isReservedWord, reservedRanges, or_assoc]

/-- The ranges of the rows and the reserved ranges. -/
def wordRanges : List (Nat × Nat) := opTable.map (fun r => (r.value.toNat, r.lastWord)) ++ reservedRanges

/-- Each range ends at the last word of all or just below the first word of another. -/
theorem wordRanges_end_to_end :
    ∀ g ∈ wordRanges, g.2 + 1 = 2 ^ 14 ∨ ∃ g' ∈ wordRanges, g'.1 = g.2 + 1 ∧ g'.1 ≤ g'.2 := by decide

/-- The ranges leave no word out: they begin at 0, and a word past the end of one begins the next. -/
theorem mem_wordRanges (n : Nat) (hn : n < 2 ^ 14) : ∃ g ∈ wordRanges, g.1 ≤ n ∧ n ≤ g.2 := by
  induction n with
  | zero =>
    have hzero : ∃ g ∈ wordRanges, g.1 ≤ 0 ∧ 0 ≤ g.2 := by decide
    exact hzero
  | succ n ih =>
    obtain ⟨g, hg, hlo, hhi⟩ := ih (by omega)
    by_cases hlast : n + 1 ≤ g.2
    · exact ⟨g, hg, by omega, hlast⟩
    · rcases wordRanges_end_to_end g hg with hend | ⟨g', hg', hfirst, hne⟩
      · omega
      · exact ⟨g', hg', by omega, by omega⟩

/-- No word of a reserved range is in a row. -/
theorem reservedRanges_apart : ∀ g ∈ reservedRanges, ∀ r ∈ opTable, r.lastWord < g.1 ∨ g.2 < r.value.toNat := by decide

/-- The reserved words are those of no row (R108). -/
theorem isReservedWord_iff_no_row (w : InstrWord) :
    isReservedWord w.toNat = true ↔ ∀ r ∈ opTable, w &&& r.mask ≠ r.value := by
  rw [isReservedWord_iff]
  constructor
  · rintro ⟨g, hg, hlo, hhi⟩ r hr hw
    obtain ⟨hfirst, hlast⟩ := (and_mask_eq_iff_range hr w).1 hw
    rcases reservedRanges_apart g hg r hr with h | h <;> omega
  · intro hnone
    obtain ⟨g, hg, hrange⟩ := mem_wordRanges w.toNat w.isLt
    rcases List.mem_append.1 hg with hrow | hreserved
    · obtain ⟨r, hr, rfl⟩ := List.mem_map.1 hrow
      exact absurd ((and_mask_eq_iff_range hr w).2 hrange) (hnone r hr)
    · exact ⟨g, hreserved, hrange⟩

end Sys2Proof

namespace Sys2Proof.Machine

/-- The core step on a reserved word is refused (R108). -/
theorem coreStep_reserved {s : State} (hpc : s.pc.toNat < s.cfg.pmWords)
    (hw : decode (s.prog.read s.pc.toNat) = .error (.reservedOpcode (s.prog.read s.pc.toNat))) :
    coreStep s = .refused (.reservedOpcode (s.prog.read s.pc.toNat)) := by
  have hfetch : fetch s = .error (.reservedOpcode (s.prog.read s.pc.toNat)) := by
    unfold fetch pmRead
    rw [if_pos hpc]
    simp only [hw]
  unfold coreStep
  rw [hfetch]

open Finset in
/-- The five ranges hold 6 + 4 + 34 + 24 + 124 words (R108). -/
theorem reservedWords_count : ((List.range (2 ^ 14)).filter isReservedWord).length = 192 := by
  have hset : ((List.range (2 ^ 14)).filter isReservedWord).toFinset =
      Icc 0x0002 0x0007 ∪ (Icc 0x000C 0x000F ∪ (Icc 0x0040 0x0061 ∪ (Icc 0x0068 0x007F ∪ Icc 0x0104 0x017F))) := by
    ext n
    simp only [isReservedWord, List.mem_toFinset, List.mem_filter, List.mem_range, Bool.or_eq_true, Bool.and_eq_true,
      decide_eq_true_eq, mem_union, mem_Icc]
    omega
  rw [← List.toFinset_card_of_nodup (List.nodup_range.filter _), hset]
  repeat rw [card_union_of_disjoint (by simp only [disjoint_left, mem_union, mem_Icc]; omega)]
  simp

/-- Settles O5: the ranges lie end to end, which settles membership; the five are counted; a fetch of such a word decodes to the
refusal. -/
theorem reservedWordsAreExactlyThese192AndRefused : Obligations.ReservedWordsAreExactlyThese192AndRefused := by
  refine ⟨isReservedWord_iff_no_row, reservedWords_count, fun s t w hrun hpc hw hreserved => ?_⟩
  subst hw
  rw [step_of_run hrun, coreStep_reserved hpc (decode_of_no_row ((isReservedWord_iff_no_row _).1 hreserved))]

end Sys2Proof.Machine
end
section
/-! SUPPORT. The lines of the assembler (R112 to R116): the form of each line is read back, and where a BRA to a label goes. -/

namespace Sys2Proof.Machine

/-- A literal written as its number is read back (R112). -/
theorem asmLiteral_toNat {n : Nat} (mk : BitVec n → Instr) (k : BitVec n) : asmLiteral n mk (.literal k.toNat) = some (mk k) := by
  have hfield : BitVec.ofNat n k.toNat = k := by rw [BitVec.ofNat_toNat, BitVec.setWidth_eq]
  exact (if_pos k.isLt).trans (congrArg (some ∘ mk) hfield)

section
variable {k : Int}

/-- A signed literal that fits is read back (R101, R112). -/
theorem asmFsrLiteral_of_inSigned6 (mk : FsrSel → Int → Instr) (n : FsrSel) (hk : inSigned6 k = true) :
    asmFsrLiteral mk (.fsrLiteral n k) = some (mk n k) := if_pos hk

/-- An offset that fits is read back (R101, R116). -/
theorem asmMove_indexed (mode : FsrSel → FsrMode → Instr) (indexed : FsrSel → Int → Instr) (n : FsrSel)
    (hk : inSigned6 k = true) : asmMove mode indexed (.indexed k n) = some (indexed n k) := if_pos hk

/-- The number after `$+` is one more than the field (R115). -/
theorem asmBra_here (pc : ProgAddr) {j : Int} (hj : j - 1 = k) (hk : inSigned9 k = true) :
    asmBra pc (.here j) = some (.bra k) := by
  subst hj
  exact if_pos hk

end

/-- The line of an instruction stands for it at every address (R112). -/
theorem assemble_asmLine (pc : ProgAddr) {i : Instr} (hi : i.wellFormed = true) (hclrw : ∀ x, i ≠ .clrw x) :
    assemble pc (asmLine i) = some i := by
  cases i
  case clrw x => exact absurd rfl (hclrw x)
  case addlw k | andlw k | iorlw k | movlb k | movlp k | movlw k | sublw k | xorlw k | call k | goto k | retlw k =>
    exact asmLiteral_toNat _ k
  case bra k => exact asmBra_here pc (Int.add_sub_cancel k 1) hi
  case addfsr n k => exact asmFsrLiteral_of_inSigned6 _ n hi
  case moviwIndexed n k => exact asmMove_indexed .moviwMode .moviwIndexed n hi
  case movwiIndexed n k => exact asmMove_indexed .movwiMode .movwiIndexed n hi
  all_goals rfl

/-- An omitted d is d = 1 (R113). -/
theorem assemble_omitted_dest (pc : ProgAddr) (m : Mnemonic) (f : FileAddr) :
    assemble pc ⟨m, .fileDest f none⟩ = assemble pc ⟨m, .fileDest f (some .f)⟩ := by
  cases m <;> rfl

/-- The field of a `BRA label`: the distance from the next address (R115). -/
def labelField (pc a : ProgAddr) : Int := a.toNat - (pc.toNat + 1)

/-- A label is assembled exactly when its distance fits the field (R100, R115). -/
theorem asmBra_label {pc a : ProgAddr} :
    asmBra pc (.label a) = if inSigned9 (labelField pc a) = true then some (.bra (labelField pc a)) else none := rfl

/-- The BRA to a label goes to it (R100, R115). -/
theorem braTarget_labelField (s : State) (a : ProgAddr) : braTarget s (labelField s.pc a) = a := by
  have hpc : s.pc + 1 = BitVec.ofInt 15 (s.pc.toNat + 1) := by
    rw [← pcPlus_one]
    rfl
  have hsum : (s.pc.toNat + 1 : Int) + labelField s.pc a = a.toNat := by
    unfold labelField
    omega
  rw [braTarget, hpc, ← BitVec.ofInt_add, hsum, BitVec.ofInt_natCast, BitVec.ofNat_toNat, BitVec.setWidth_eq]

/-- Settles O6: each line's form gives back the operands written in it; the field of a BRA to a label is the distance to it. -/
theorem syntaxLinesStandForTheirInstructions : Obligations.SyntaxLinesStandForTheirInstructions := by
  refine ⟨fun pc i hi hclrw => assemble_asmLine pc hi hclrw, fun pc x => rfl, assemble_omitted_dest, fun s a => ⟨?_, ?_⟩,
    fun pc k hk => asmBra_here pc rfl hk⟩
  · intro hlo hhi
    have hreach : inSigned9 (labelField s.pc a) = true := inSigned9_iff.2 ⟨hlo, hhi⟩
    refine ⟨labelField s.pc a, asmBra_label.trans (if_pos hreach), ?_⟩
    exact congrArg (fun t => Host.Outcome.next { s with pc := t }) (braTarget_labelField s a)
  · intro hout
    refine asmBra_label.trans (if_neg fun hreach => ?_)
    obtain ⟨hlo, hhi⟩ := inSigned9_iff.1 hreach
    unfold labelField at hlo hhi
    omega

end Sys2Proof.Machine
end
section
/-! SUPPORT. The 8-bit results and their flags (R121, R122, R127 to R130, R133 to R144), each said once on integers or by the byte that
sets Z. -/

namespace Sys2Proof.Machine

/-! ### Z (R32) -/

/-- Z is decided by whatever says that the result is 0 (R32). -/
theorem isZero_eq_decide {r : Byte} {p : Prop} [Decidable p] (h : r = 0 ↔ p) : isZero r = decide p := by
  rw [isZero, Bool.eq_iff_iff, beq_iff_eq, decide_eq_true_eq, h]

/-- Z after COMF (R133): only 0xFF has the complement 0. -/
theorem isZero_not (v : Byte) : isZero (~~~v) = decide (v = 0xFF) :=
  isZero_eq_decide BitVec.not_eq_comm

/-- Z after DECF (R134): only 0x01 is decremented to 0. -/
theorem isZero_sub_one (v : Byte) : isZero (v - 1) = decide (v = 0x01) :=
  isZero_eq_decide sub_eq_zero

/-- Z of an inclusive or (R136, R168): both bytes are 0. -/
theorem isZero_or (a b : Byte) : isZero (a ||| b) = decide (a = 0 ∧ b = 0) :=
  isZero_eq_decide BitVec.or_eq_zero_iff

/-- Z of an exclusive or (R144, R173): the bytes are equal. -/
theorem isZero_xor (a b : Byte) : isZero (a ^^^ b) = decide (a = b) :=
  isZero_eq_decide BitVec.xor_eq_zero_iff

/-- A result that affects Z only, with Z by what decides it (R32). -/
theorem zResult_eq {r : Byte} {zero : Bool} (h : isZero r = zero) :
    zResult r = { value := r, flags := { c := none, dc := none, z := some zero } } := by
  rw [← h]
  rfl

/-- COMF's result, on integers (R133). -/
theorem zResult_not (v : Byte) :
    zResult (~~~v) = { value := 0xFF - v, flags := { c := none, dc := none, z := some (decide (v = 0xFF)) } } := by
  have hcomplement : ~~~v = 0xFF - v := (BitVec.allOnes_sub_eq_not v).symm
  rw [zResult_eq (isZero_not v), hcomplement]

/-! ### Sums and differences (R121, R122) -/

/-- A byte less another and less an incoming borrow, modulo 256. -/
theorem toNat_sub_borrow (a b : Byte) (c : Bool) :
    (a - b - (if c then 0 else 1)).toNat = (512 + a.toNat - b.toNat - (if c then 0 else 1)) % 256 := by
  cases c with
  | false =>
    simp only [Bool.false_eq_true, if_false]
    bv_omega
  | true =>
    simp only [if_true]
    bv_omega

section
variable (a b : Byte) (cin : Bool)

/-- A sum with an incoming carry, on integers (R121). -/
theorem add8_eq_ofNat :
    add8 a b cin =
      { value := BitVec.ofNat 8 (a.toNat + b.toNat + cin.toNat)
        flags :=
          { c := some (decide (256 ≤ a.toNat + b.toNat + cin.toNat))
            dc := some (decide (16 ≤ a.toNat % 16 + b.toNat % 16 + cin.toNat))
            z := some (decide ((a.toNat + b.toNat + cin.toNat) % 256 = 0)) } } := by
  rw [← isZero_ofNat]
  rfl

/-- A sum without an incoming carry (R121). -/
theorem add8_false :
    add8 a b false =
      { value := a + b
        flags :=
          { c := some (decide (256 ≤ a.toNat + b.toNat))
            dc := some (decide (16 ≤ a.toNat % 16 + b.toNat % 16))
            z := some (decide (a + b = 0)) } } := by
  have hsum : BitVec.ofNat 8 (a.toNat + b.toNat + false.toNat) = a + b := rfl
  simp only [add8, hsum]
  rfl

/-- The difference by the 2's complement method, with C and DC as the inverted borrows (R122): the incoming borrow is one when C is 0. -/
theorem sub8_eq_sub :
    sub8 a b cin =
      { value := a - b - (if cin then 0 else 1)
        flags :=
          { c := some (decide (b.toNat + (if cin then 0 else 1) ≤ a.toNat))
            dc := some (decide (b.toNat % 16 + (if cin then 0 else 1) ≤ a.toNat % 16))
            z := some (decide (a - b - (if cin then 0 else 1) = 0)) } } := by
  have ha := a.isLt
  have hb := b.isLt
  have hnot : (~~~b).toNat = 255 - b.toNat := by rw [BitVec.toNat_not]
  have hborrow : cin.toNat + (if cin then 0 else 1) = 1 := by cases cin <;> rfl
  have hvalue : BitVec.ofNat 8 (a.toNat + (255 - b.toNat) + cin.toNat) = a - b - (if cin then 0 else 1) := by
    apply BitVec.eq_of_toNat_eq
    rw [toNat_sub_borrow, BitVec.toNat_ofNat]
    omega
  have hc : 256 ≤ a.toNat + (255 - b.toNat) + cin.toNat ↔ b.toNat + (if cin then 0 else 1) ≤ a.toNat := by omega
  have hdc : 16 ≤ a.toNat % 16 + (255 - b.toNat) % 16 + cin.toNat ↔
      b.toNat % 16 + (if cin then 0 else 1) ≤ a.toNat % 16 := by omega
  unfold sub8 add8
  simp only [hnot, hvalue, hc, hdc]
  rfl

/-- The difference without an incoming borrow (R122). -/
theorem sub8_true :
    sub8 a b true =
      { value := a - b
        flags :=
          { c := some (decide (b.toNat ≤ a.toNat))
            dc := some (decide (b.toNat % 16 ≤ a.toNat % 16))
            z := some (decide (a = b)) } } := by
  have hzero : a - b = 0 ↔ a = b := sub_eq_zero
  rw [sub8_eq_sub]
  simp only [if_true, Nat.add_zero, sub_zero, hzero]

end

/-! ### Shifts, rotates and the exchange of nibbles (R128 to R130, R139, R140, R143) -/

section
variable (v : Byte)

/-- Bit 0 of a byte is its residue (R128, R130, R140). -/
theorem getLsbD_zero_eq_decide : v.getLsbD 0 = decide (v.toNat % 2 = 1) := by
  rw [getLsbD_eq_decide, Nat.pow_zero, Nat.div_one]

/-- Bit 7 of a byte says whether it reaches 128 (R129, R139). -/
theorem getLsbD_seven_eq_decide : v.getLsbD 7 = decide (128 ≤ v.toNat) := by
  have hv := v.isLt
  rw [getLsbD_eq_decide, decide_eq_decide]
  omega

/-- ASRF's shift (R128): the sign stays, and only 0 and 1 are shifted to 0. -/
theorem asr8_eq_sshiftRight :
    asr8 v =
      { value := v.sshiftRight 1
        flags := { c := some (decide (v.toNat % 2 = 1)), dc := none, z := some (decide (v.toNat ≤ 1)) } } := by
  have hv := v.isLt
  have hbits : v.extractLsb' 7 1 ++ v.extractLsb' 1 7 = v.sshiftRight 1 := by
    apply BitVec.eq_of_getLsbD_eq
    intro i hi
    rw [BitVec.getLsbD_append, BitVec.getLsbD_extractLsb', BitVec.getLsbD_extractLsb', BitVec.getLsbD_sshiftRight]
    by_cases hlow : i < 7
    · simp [hlow, Nat.not_le.2 hi, show 1 + i < 8 by omega]
    · obtain rfl : i = 7 := by omega
      simp [BitVec.msb_eq_getLsbD_last]
  have hzero : isZero (v.extractLsb' 7 1 ++ v.extractLsb' 1 7) = decide (v.toNat ≤ 1) := by
    rw [append_eq_ofNat, isZero_ofNat, decide_eq_decide, extractLsb'_eq_ofNat, extractLsb'_eq_ofNat, BitVec.toNat_ofNat,
      BitVec.toNat_ofNat]
    omega
  unfold asr8 czResult
  rw [hzero, hbits, getLsbD_zero_eq_decide]

/-- LSLF's shift (R129). -/
theorem lsl8_eq_shiftLeft :
    lsl8 v =
      { value := v <<< 1
        flags := { c := some (decide (128 ≤ v.toNat)), dc := none, z := some (decide (v.toNat % 128 = 0)) } } := by
  have hdouble : v.extractLsb' 0 7 ++ 0#1 = BitVec.ofNat 8 (2 * v.toNat) := by
    rw [lowField_eq_ofNat]
    exact ofNat_append_ofBool 7 v.toNat false
  have hshift : BitVec.ofNat 8 (2 * v.toNat) = v <<< 1 := by
    rw [BitVec.shiftLeft_eq_mul_twoPow]
    bv_omega
  have hzero : isZero (v <<< 1) = decide (v.toNat % 128 = 0) := by
    rw [← hshift, isZero_ofNat, decide_eq_decide]
    omega
  unfold lsl8 czResult
  rw [hdouble, hshift, hzero, getLsbD_seven_eq_decide]

/-- LSRF's shift (R130): only 0 and 1 are shifted to 0. -/
theorem lsr8_eq_ushiftRight :
    lsr8 v =
      { value := v >>> 1
        flags := { c := some (decide (v.toNat % 2 = 1)), dc := none, z := some (decide (v.toNat ≤ 1)) } } := by
  have hv := v.isLt
  have hhalf : 0#1 ++ v.extractLsb' 1 7 = BitVec.ofNat 8 (v.toNat / 2) := by
    rw [zeros_append_eq_ofNat, extractLsb'_eq_ofNat, BitVec.toNat_ofNat]
    congr 1
    omega
  have hshift : BitVec.ofNat 8 (v.toNat / 2) = v >>> 1 := by
    apply BitVec.eq_of_toNat_eq
    rw [BitVec.toNat_ofNat, BitVec.toNat_ushiftRight, Nat.shiftRight_eq_div_pow]
    omega
  have hzero : isZero (v >>> 1) = decide (v.toNat ≤ 1) := by
    rw [← hshift, isZero_ofNat, decide_eq_decide]
    omega
  unfold lsr8 czResult
  rw [hhalf, hshift, hzero, getLsbD_zero_eq_decide]

/-- RLF's rotate, on integers (R139). -/
theorem rl8_eq_ofNat (c : Bool) :
    rl8 v c =
      { value := BitVec.ofNat 8 (2 * v.toNat + c.toNat)
        flags := { c := some (decide (128 ≤ v.toNat)), dc := none, z := none } } := by
  unfold rl8 cResult
  rw [lowField_eq_ofNat, ofNat_append_ofBool, getLsbD_seven_eq_decide]

/-- RRF's rotate, on integers (R140). -/
theorem rr8_eq_ofNat (c : Bool) :
    rr8 v c =
      { value := BitVec.ofNat 8 (128 * c.toNat + v.toNat / 2)
        flags := { c := some (decide (v.toNat % 2 = 1)), dc := none, z := none } } := by
  have hv := v.isLt
  have hbits : BitVec.ofBool c ++ v.extractLsb' 1 7 = BitVec.ofNat 8 (128 * c.toNat + v.toNat / 2) := by
    rw [append_eq_ofNat, BitVec.toNat_ofBool, extractLsb'_eq_ofNat, BitVec.toNat_ofNat]
    congr 1
    omega
  unfold rr8 cResult
  rw [hbits, getLsbD_zero_eq_decide]

/-- SWAPF's exchange, on integers (R143). -/
theorem swapNibbles_eq_ofNat : swapNibbles v = BitVec.ofNat 8 (v.toNat % 16 * 16 + v.toNat / 16) := by
  have hv := v.isLt
  unfold swapNibbles
  rw [append_eq_ofNat, lowField_eq_ofNat, extractLsb'_eq_ofNat, BitVec.toNat_ofNat, BitVec.toNat_ofNat]
  congr 1
  omega

end

end Sys2Proof.Machine
end
section
/-! SUPPORT. The rules of the `f, d` and the `f` instructions from their shapes (R12, R120, R279), and the statements about the
byte-oriented file register operations and the logical and move literals. -/

namespace Sys2Proof.Machine

/-! ### Instructions with a file operand -/

/-- A word that `encode` gives decodes to its instruction. -/
theorem decode_of_encode {i : Instr} {w : InstrWord} (hw : encode i = w) (hi : i.wellFormed = true) : decode w = .ok i := by
  rw [← hw]
  exact decode_encode hi

/-- The instruction has the word `w`, one file operand `f` with destination select `d`, the base cycle count 1 and no skip, and it
executes as `run` (R92, R279). -/
structure FileInstr (i : Instr) (w : InstrWord) (f : FileAddr) (d : Dest) (run : State → Result) : Prop where
  encode_eq : encode i = w
  wellFormed_eq : i.wellFormed = true
  baseCycles_eq : baseCycles i = 1
  skipTaken_eq : skipTaken i = fun _ => false
  storeTarget_eq : storeTarget i = fun s => fileWriteLoc s f d
  slowAccess_eq : slowAccess i = fun s => indfInProgram s f
  exec_eq : ∀ s, exec i s = run s

/-- The cycle of Note 2 (R279): the operand is INDFn and its pointer is in program memory. -/
theorem indfCycle_eq (s : State) (f : FileAddr) : indfCycle s f = if indfInProgram s f = true then 1 else 0 := by
  have hmsb : ∀ p : Ptr, (p.getLsbD 15 = true) = (0x8000 ≤ p.toNat) := fun p => by rw [ptr_msb, decide_eq_true_eq]
  unfold indfCycle indfInProgram State.indfPointer
  cases coreAt s.cfg f.toNat with
  | none => simp
  | some r => cases r <;> simp [hmsb, -BitVec.getLsbD_eq_getElem]

/-- The file register is written at PCL when it is the destination and selects PCL (R54). -/
theorem fileWriteLoc_pcl_iff (s : State) (f : FileAddr) (d : Dest) :
    (fileWriteLoc s f d == some (.core .pcl)) = true ↔ d = .f ∧ selectsPcl s f = true := by
  cases d with
  | w => simp [fileWriteLoc]
  | f => simp [fileWriteLoc, selectsPcl]

section
variable {i : Instr} {w : InstrWord} {f : FileAddr} {d : Dest} {run : State → Result}

/-- The word of the instruction decodes to it. -/
theorem FileInstr.decode_eq (h : FileInstr i w f d run) : decode w = .ok i :=
  decode_of_encode h.encode_eq h.wellFormed_eq

/-- The cycles of the instruction (R279). -/
theorem FileInstr.cycles_eq (h : FileInstr i w f d run) (s : State) :
    cycles i s = 1 + (if d = .f ∧ selectsPcl s f = true then 1 else 0) + indfCycle s f := by
  unfold cycles
  rw [h.baseCycles_eq, h.skipTaken_eq, h.storeTarget_eq, h.slowAccess_eq, indfCycle_eq]
  simp only [Bool.false_or, fileWriteLoc_pcl_iff]

end

/-! ### The two shapes -/

section
variable {s n : State} {f : FileAddr} {d : Dest} {e : Refusal}

/-- A file destination that refuses the write refuses the instruction (R12, R120). -/
theorem writeBack_f_of_fwrite_error {x : AluResult} (h : fwrite s n f x.flags.kind x.value = .error e) :
    writeBack s n f .f x = .refused e := by
  unfold writeBack
  simp only [h]

/-- An operand that cannot be read refuses the instruction (R120). -/
theorem byteOp_of_fread_error {alu : Byte → AluResult} (h : fread s f = .error e) : byteOp f d alu s = .refused e := by
  unfold byteOp
  rw [h]

end

/-- The rule of an `f, d` instruction whose result for `v` is `value s v` with the flags `written s v`. -/
theorem fileOpRule_of_alu {mk : FileAddr → Dest → Instr} {opcode : BitVec 6} {kind : FlagKind} {value : State → Byte → Byte}
    {flags : State → Byte → State → State} {written : State → Byte → FlagWrite} (alu : State → Byte → AluResult)
    (hmk : ∀ f d, FileInstr (mk f d) (opcode ++ d.bit ++ f) f d fun s => byteOp f d (alu s) s)
    (halu : ∀ s v, alu s v = ⟨value s v, written s v⟩) (hkind : ∀ s v, (written s v).kind = kind)
    (hflags : ∀ s v t, t.setFlags (written s v) = flags s v t) : FileOpRule mk opcode kind value flags := by
  intro f d s
  refine ⟨(hmk f d).decode_eq, (hmk f d).cycles_eq s, fun v hread => ?_, fun e hread => ?_⟩
  · have hexec : ∀ d, exec (mk f d) s = writeBack s { s with pc := pcPlus s 1 } f d ⟨value s v, written s v⟩ := by
      intro d
      rw [(hmk f d).exec_eq, byteOp_of_fread hread, halu, advance_eq]
    rw [hexec, hexec]
    refine ⟨?_, fun t hwrite => ?_, fun e hwrite => ?_⟩
    · rw [← hflags]
      rfl
    · rw [← hflags]
      exact writeBack_f_of_fwrite (by rw [hkind]; exact hwrite)
    · exact writeBack_f_of_fwrite_error (by rw [hkind]; exact hwrite)
  · rw [(hmk f d).exec_eq]
    exact byteOp_of_fread_error hread

/-- The rule of an instruction that writes `value s` with the flags `written` to a file register it does not read. -/
theorem storeRule_of_alu {mk : FileAddr → Instr} {opcode : BitVec 7} {value : State → Byte} {flags : State → State}
    (written : FlagWrite) (hmk : ∀ f, FileInstr (mk f) (opcode ++ f) f .f fun s => storeOp f ⟨value s, written⟩ s)
    (hflags : ∀ t, t.setFlags written = flags t) : StoreRule mk opcode written.kind value flags := by
  intro f s
  have hexec : exec (mk f) s = writeBack s { s with pc := pcPlus s 1 } f .f ⟨value s, written⟩ := by
    rw [(hmk f).exec_eq, ← advance_eq]
    rfl
  rw [hexec]
  refine ⟨(hmk f).decode_eq, ?_, fun t hwrite => ?_, fun e hwrite => ?_⟩
  · rw [(hmk f).cycles_eq]
    simp only [true_and]
  · rw [← hflags]
    exact writeBack_f_of_fwrite hwrite
  · exact writeBack_f_of_fwrite_error hwrite

/-! ### The byte-oriented file register operations -/

/-- Settles O20: both are the sum of W and the operand, ADDWFC with C as the incoming carry. -/
theorem addwfAndAddwfc : Obligations.AddwfAndAddwfc :=
  ⟨fileOpRule_of_alu (fun s v => add8 s.w v false) (fun _ _ => ⟨rfl, rfl, rfl, rfl, rfl, rfl, fun _ => rfl⟩)
      (fun s v => add8_false s.w v) (fun _ _ => rfl) (fun _ _ _ => rfl),
    fileOpRule_of_alu (fun s v => add8 s.w v s.c) (fun _ _ => ⟨rfl, rfl, rfl, rfl, rfl, rfl, fun _ => rfl⟩)
      (fun s v => add8_eq_ofNat s.w v s.c) (fun _ _ => rfl) (fun _ _ _ => rfl)⟩

/-- Settles O21: both are the difference of the operand and W, SUBWFB with a borrow when C is 0. -/
theorem subwfAndSubwfb : Obligations.SubwfAndSubwfb :=
  ⟨fileOpRule_of_alu (fun s v => sub8 v s.w true) (fun _ _ => ⟨rfl, rfl, rfl, rfl, rfl, rfl, fun _ => rfl⟩)
      (fun s v => sub8_true v s.w) (fun _ _ => rfl) (fun _ _ _ => rfl),
    fileOpRule_of_alu (fun s v => sub8 v s.w s.c) (fun _ _ => ⟨rfl, rfl, rfl, rfl, rfl, rfl, fun _ => rfl⟩)
      (fun s v => sub8_eq_sub v s.w s.c) (fun _ _ => rfl) (fun _ _ _ => rfl)⟩

/-- Settles O22: each result is a bitwise operation, and Z is set by the operands that give 0. -/
theorem logicalFileOperations : Obligations.LogicalFileOperations := by
  refine ⟨?_, ?_, ?_, ?_⟩
  · exact fileOpRule_of_alu (fun s v => zResult (s.w &&& v)) (fun _ _ => ⟨rfl, rfl, rfl, rfl, rfl, rfl, fun _ => rfl⟩)
      (fun _ _ => zResult_eq (isZero_eq_decide Iff.rfl)) (fun _ _ => rfl) (fun _ _ _ => rfl)
  · exact fileOpRule_of_alu (fun _ v => zResult (~~~v)) (fun _ _ => ⟨rfl, rfl, rfl, rfl, rfl, rfl, fun _ => rfl⟩)
      (fun _ v => zResult_not v) (fun _ _ => rfl) (fun _ _ _ => rfl)
  · exact fileOpRule_of_alu (fun s v => zResult (s.w ||| v)) (fun _ _ => ⟨rfl, rfl, rfl, rfl, rfl, rfl, fun _ => rfl⟩)
      (fun s v => zResult_eq (isZero_or s.w v)) (fun _ _ => rfl) (fun _ _ _ => rfl)
  · exact fileOpRule_of_alu (fun s v => zResult (s.w ^^^ v)) (fun _ _ => ⟨rfl, rfl, rfl, rfl, rfl, rfl, fun _ => rfl⟩)
      (fun s v => zResult_eq (isZero_xor s.w v)) (fun _ _ => rfl) (fun _ _ _ => rfl)

/-- Settles O23: each writes Z alone, set by the one operand that gives 0. -/
theorem incrementDecrementMoveFile : Obligations.IncrementDecrementMoveFile := by
  refine ⟨?_, ?_, ?_⟩
  · exact fileOpRule_of_alu (fun _ v => zResult (v - 1)) (fun _ _ => ⟨rfl, rfl, rfl, rfl, rfl, rfl, fun _ => rfl⟩)
      (fun _ v => zResult_eq (isZero_sub_one v)) (fun _ _ => rfl) (fun _ _ _ => rfl)
  · exact fileOpRule_of_alu (fun _ v => zResult (v + 1)) (fun _ _ => ⟨rfl, rfl, rfl, rfl, rfl, rfl, fun _ => rfl⟩)
      (fun _ v => zResult_eq (isZero_add_one v)) (fun _ _ => rfl) (fun _ _ _ => rfl)
  · exact fileOpRule_of_alu (fun _ v => zResult v) (fun _ _ => ⟨rfl, rfl, rfl, rfl, rfl, rfl, fun _ => rfl⟩)
      (fun _ _ => zResult_eq (isZero_eq_decide Iff.rfl)) (fun _ _ => rfl) (fun _ _ _ => rfl)

/-- Settles O24: the shifts, rotates and the exchange on integers; only the rotates take the old C. -/
theorem shiftRotateAndSwap : Obligations.ShiftRotateAndSwap := by
  refine ⟨?_, ?_, ?_, ?_, ?_, ?_⟩
  · exact fileOpRule_of_alu (fun _ v => asr8 v) (fun _ _ => ⟨rfl, rfl, rfl, rfl, rfl, rfl, fun _ => rfl⟩)
      (fun _ v => asr8_eq_sshiftRight v) (fun _ _ => rfl) (fun _ _ _ => rfl)
  · exact fileOpRule_of_alu (fun _ v => lsl8 v) (fun _ _ => ⟨rfl, rfl, rfl, rfl, rfl, rfl, fun _ => rfl⟩)
      (fun _ v => lsl8_eq_shiftLeft v) (fun _ _ => rfl) (fun _ _ _ => rfl)
  · exact fileOpRule_of_alu (fun _ v => lsr8 v) (fun _ _ => ⟨rfl, rfl, rfl, rfl, rfl, rfl, fun _ => rfl⟩)
      (fun _ v => lsr8_eq_ushiftRight v) (fun _ _ => rfl) (fun _ _ _ => rfl)
  · exact fileOpRule_of_alu (fun s v => rl8 v s.c) (fun _ _ => ⟨rfl, rfl, rfl, rfl, rfl, rfl, fun _ => rfl⟩)
      (fun s v => rl8_eq_ofNat v s.c) (fun _ _ => rfl) (fun _ _ _ => rfl)
  · exact fileOpRule_of_alu (fun s v => rr8 v s.c) (fun _ _ => ⟨rfl, rfl, rfl, rfl, rfl, rfl, fun _ => rfl⟩)
      (fun s v => rr8_eq_ofNat v s.c) (fun _ _ => rfl) (fun _ _ _ => rfl)
  · exact fileOpRule_of_alu (fun _ v => plainResult (swapNibbles v))
      (fun _ _ => ⟨rfl, rfl, rfl, rfl, rfl, rfl, fun _ => rfl⟩)
      (fun _ v => congrArg plainResult (swapNibbles_eq_ofNat v)) (fun _ _ => rfl) (fun _ _ _ => rfl)

/-- Settles O26: both are a write with no read before it; CLRF's byte 0 sets Z. -/
theorem clrfAndMovwf : Obligations.ClrfAndMovwf :=
  ⟨storeRule_of_alu (zResult 0).flags (fun _ => ⟨rfl, rfl, rfl, rfl, rfl, rfl, fun _ => rfl⟩) (fun _ => rfl),
    storeRule_of_alu .nothing (fun _ => ⟨rfl, rfl, rfl, rfl, rfl, rfl, fun _ => rfl⟩) (fun _ => rfl)⟩

/-! ### Literals -/

/-- A literal operation that affects Z only (R165). -/
theorem literalOp_zResult (s : State) {r : Byte} {zero : Bool} (h : isZero r = zero) :
    literalOp (zResult r) s = .next { s with pc := pcPlus s 1, w := r, z := zero } := by
  rw [literalOp, zResult_eq h, advance_eq]
  rfl

/-- A literal operation that affects no flag (R165). -/
theorem literalOp_plainResult (s : State) (r : Byte) :
    literalOp (plainResult r) s = .next { s with pc := pcPlus s 1, w := r } := by
  rw [literalOp, advance_eq]
  rfl

/-- Settles O31: the words are those of `encode`; MOVLB and MOVLP write their register, the others are literal operations on W. -/
theorem logicalAndMoveLiteral : Obligations.LogicalAndMoveLiteral := by
  intro k x b p s
  have hmovlb : exec (.movlb b) s = .next { s with pc := pcPlus s 1, bsr := b } := by
    rw [pcPlus_one]
    rfl
  have hmovlp : exec (.movlp p) s = .next { s with pc := pcPlus s 1, pclath := p } := by
    rw [pcPlus_one]
    rfl
  refine ⟨decode_of_encode rfl rfl, decode_of_encode rfl rfl, rfl, rfl, hmovlb, hmovlp, decode_of_encode rfl rfl,
    decode_of_encode rfl rfl, decode_of_encode rfl rfl, decode_of_encode rfl rfl, decode_of_encode rfl rfl,
    rfl, rfl, rfl, rfl, rfl, ?clrw, ?andlw, ?iorlw, ?movlw, ?xorlw⟩
  case clrw => exact literalOp_zResult s rfl
  case andlw => exact literalOp_zResult s (isZero_eq_decide Iff.rfl)
  case iorlw => exact literalOp_zResult s (isZero_or s.w k)
  case movlw => exact literalOp_plainResult s k
  case xorlw => exact literalOp_zResult s (isZero_xor s.w k)

/-! ### Arithmetic across bytes -/

/-- Two bytes as a 16-bit number. -/
theorem toNat_append_bytes (hi lo : Byte) : (hi ++ lo).toNat = 256 * hi.toNat + lo.toNat := by
  have hhi := hi.isLt
  have hlo := lo.isLt
  rw [append_eq_ofNat, BitVec.toNat_ofNat]
  omega

section
variable (a₁ a₂ b₁ b₂ : Byte)

/-- Subtracting byte by byte, with the low bytes' borrow taken from the high bytes, subtracts the 16-bit numbers. -/
theorem sub_append_bytes :
    (a₂ - b₂ - (if decide (b₁.toNat ≤ a₁.toNat) then 0 else 1)) ++ (a₁ - b₁) = (a₂ ++ a₁) - (b₂ ++ b₁) ∧
      (b₂.toNat + (if decide (b₁.toNat ≤ a₁.toNat) then 0 else 1) ≤ a₂.toNat ↔ (b₂ ++ b₁).toNat ≤ (a₂ ++ a₁).toNat) := by
  have ha₁ := a₁.isLt
  have hb₁ := b₁.isLt
  have hborrow : (if decide (b₁.toNat ≤ a₁.toNat) then 0 else 1) = (255 + b₁.toNat - a₁.toNat) / 256 := by
    by_cases hle : b₁.toNat ≤ a₁.toNat
    · rw [decide_eq_true hle, if_pos rfl]
      omega
    · rw [decide_eq_false hle, if_neg Bool.false_ne_true]
      omega
  refine ⟨BitVec.eq_of_toNat_eq ?_, ?_⟩
  · rw [toNat_append_bytes, toNat_sub_borrow, hborrow, BitVec.toNat_sub, BitVec.toNat_sub, toNat_append_bytes,
      toNat_append_bytes]
    omega
  · rw [hborrow, toNat_append_bytes, toNat_append_bytes]
    omega

/-- Adding byte by byte, with the low bytes' carry added to the high bytes, adds the 16-bit numbers. -/
theorem add_append_bytes :
    BitVec.ofNat 8 (a₂.toNat + b₂.toNat + (decide (256 ≤ a₁.toNat + b₁.toNat)).toNat) ++ (a₁ + b₁) =
        (a₂ ++ a₁) + (b₂ ++ b₁) ∧
      (256 ≤ a₂.toNat + b₂.toNat + (decide (256 ≤ a₁.toNat + b₁.toNat)).toNat ↔
        2 ^ 16 ≤ (a₂ ++ a₁).toNat + (b₂ ++ b₁).toNat) := by
  have ha₁ := a₁.isLt
  have hb₁ := b₁.isLt
  have hcarry : (decide (256 ≤ a₁.toNat + b₁.toNat)).toNat = (a₁.toNat + b₁.toNat) / 256 := by
    by_cases hover : 256 ≤ a₁.toNat + b₁.toNat
    · rw [decide_eq_true hover, Bool.toNat_true]
      omega
    · rw [decide_eq_false hover, Bool.toNat_false]
      omega
  refine ⟨BitVec.eq_of_toNat_eq ?_, ?_⟩
  · rw [hcarry, toNat_append_bytes, BitVec.toNat_add, BitVec.toNat_add, toNat_append_bytes, toNat_append_bytes,
      BitVec.toNat_ofNat]
    omega
  · rw [hcarry, toNat_append_bytes, toNat_append_bytes]
    omega

end

/-- By its rule, an `f, d` instruction with destination W leaves one state. -/
theorem FileOpRule.eq_of_next {mk : FileAddr → Dest → Instr} {opcode : BitVec 6} {kind : FlagKind}
    {value : State → Byte → Byte} {flags : State → Byte → State → State} (h : FileOpRule mk opcode kind value flags) {s t : State}
    {f : FileAddr} {v : Byte} (hread : fread s f = .ok v) (hexec : exec (mk f .w) s = .next t) :
    t = flags s v { s with pc := pcPlus s 1, w := value s v } := by
  obtain ⟨-, -, hrule, -⟩ := h f .w s
  obtain ⟨hnext, -, -⟩ := hrule v hread
  rw [hnext] at hexec
  injection hexec with hstate
  exact hstate.symm

/-- Settles O45: the rules of the two instructions, and the arithmetic on two bytes with the borrow or carry between them. -/
theorem sixteenBitArithmetic : Obligations.SixteenBitArithmetic := by
  intro s₁ s₂ t₁ t₂ f g lo hi hlo hhi hc
  obtain ⟨hsub, hsubb⟩ := subwfAndSubwfb
  obtain ⟨hadd, haddc⟩ := addwfAndAddwfc
  refine ⟨fun hlow hhigh => ?_, fun hlow hhigh => ?_⟩
  · obtain rfl := hsub.eq_of_next hlo hlow
    obtain rfl := hsubb.eq_of_next hhi hhigh
    obtain ⟨hvalue, hborrow⟩ := sub_append_bytes lo hi s₁.w s₂.w
    refine ⟨?_, ?_⟩
    · rw [← hvalue, hc]
    · rw [← hborrow, hc, decide_eq_true_eq]
  · obtain rfl := hadd.eq_of_next hlo hlow
    obtain rfl := haddc.eq_of_next hhi hhigh
    obtain ⟨hvalue, hcarry⟩ := add_append_bytes s₁.w s₂.w lo hi
    refine ⟨?_, ?_⟩
    · rw [← hvalue, hc]
    · rw [← hcarry, hc, decide_eq_true_eq]

end Sys2Proof.Machine
end
section
/-! SUPPORT. DECFSZ and INCFSZ (R150 to R152): the skip, its cycle (R279), and their rule from the shape `skipOp`. -/

namespace Sys2Proof.Machine

/-! ### Skips -/

/-- The end of an instruction that skips, with pc on integers (R150). -/
theorem skipNext_eq (s : State) : s.skipNext = { s with pc := pcPlus s 2 } := by
  rw [pcPlus_two]
  rfl

/-- The end of an instruction that decides a skip by `p`, with pc on integers. -/
theorem skipNext_or_advance_eq (s : State) (p : Prop) [Decidable p] :
    (if p then s.skipNext else s.advance) = { s with pc := pcPlus s (if p then 2 else 1) } := by
  split
  · exact skipNext_eq s
  · exact advance_eq s

/-- The cycles of an instruction with a file operand that does not write PCL (R279). -/
theorem cycles_of_storeTarget_ne_pcl {i : Instr} {s : State} {f : FileAddr} (hbase : baseCycles i = 1)
    (hslow : slowAccess i s = indfInProgram s f) (hpcl : (storeTarget i s == some (.core .pcl)) = false) :
    cycles i s = 1 + (if skipTaken i s = true then 1 else 0) + indfCycle s f := by
  unfold cycles
  rw [hbase, hslow, hpcl, indfCycle_eq, Bool.or_false]

/-! ### The shape of DECFSZ and INCFSZ -/

section
variable {s : State} {f : FileAddr} {d : Dest} {g : Byte → Byte} {v : Byte}

/-- An operand that cannot be read refuses the instruction. -/
theorem skipOp_of_fread_error {e : Refusal} (h : fread s f = .error e) : skipOp f d g s = .refused e := by
  unfold skipOp
  rw [h]

/-- The operand that selects PCL has PCL's location (R54). -/
theorem fileLoc_of_selectsPcl (h : selectsPcl s f = true) : fileLoc s f = .ok (.core .pcl) :=
  toOption_eq_some (eq_of_beq h)

/-- A result that is not bound for PCL is written back, and decides how far pc moves. -/
theorem skipOp_of_fread (h : fread s f = .ok v) (hpcl : ¬(d = .f ∧ selectsPcl s f = true)) :
    skipOp f d g s = writeBack s { s with pc := pcPlus s (if g v = 0 then 2 else 1) } f d (plainResult (g v)) := by
  have hgoesOn : (d == .f && selectsPcl s f) = false := by simpa using hpcl
  unfold skipOp
  simp only [h, hgoesOn, Bool.false_eq_true, if_false, skipNext_or_advance_eq]

end

/-- The instructions `mk f d` have the words of `opcode` (R92), the base cycle count 1 (R279), and execute as `skipOp` with `value`;
the skip is taken when the operand reads `last`, the one byte whose result is 0. -/
structure SkipInstr (mk : FileAddr → Dest → Instr) (opcode : BitVec 6) (value : Byte → Byte) (last : Byte) : Prop where
  encode_eq : ∀ f d, encode (mk f d) = opcode ++ d.bit ++ f
  wellFormed_eq : ∀ f d, (mk f d).wellFormed = true
  baseCycles_eq : ∀ f d, baseCycles (mk f d) = 1
  skipTaken_eq : ∀ f d s, skipTaken (mk f d) s = ((fread s f).toOption == some last)
  storeTarget_eq : ∀ f d s, storeTarget (mk f d) s = fileWriteLoc s f d
  slowAccess_eq : ∀ f d s, slowAccess (mk f d) s = indfInProgram s f
  exec_eq : ∀ f d s, exec (mk f d) s = skipOp f d value s
  value_eq_zero_iff : ∀ v, value v = 0 ↔ v = last

section
variable {mk : FileAddr → Dest → Instr} {opcode : BitVec 6} {value : Byte → Byte} {last : Byte}

/-- The skip that the cycle count sees is the one that the result decides (R150, R279). -/
theorem SkipInstr.skipTaken_iff (h : SkipInstr mk opcode value last) {s : State} {f : FileAddr} {v : Byte}
    (hread : fread s f = .ok v) (d : Dest) : skipTaken (mk f d) s = true ↔ value v = 0 := by
  rw [h.skipTaken_eq, hread, h.value_eq_zero_iff]
  exact beq_iff_eq.trans Option.some_inj

/-- The cycles of the instruction where it is not refused (R279). -/
theorem SkipInstr.cycles_eq (h : SkipInstr mk opcode value last) {s : State} {f : FileAddr} {d : Dest} {v : Byte}
    (hread : fread s f = .ok v) (hpcl : ¬(d = .f ∧ selectsPcl s f = true)) :
    cycles (mk f d) s = 1 + (if value v = 0 then 1 else 0) + indfCycle s f := by
  have hstore : (storeTarget (mk f d) s == some (.core .pcl)) = false := by
    rw [h.storeTarget_eq, Bool.eq_false_iff]
    exact (fileWriteLoc_pcl_iff s f d).not.mpr hpcl
  rw [cycles_of_storeTarget_ne_pcl (h.baseCycles_eq f d) (h.slowAccess_eq f d s) hstore]
  simp only [h.skipTaken_iff hread d]

/-- The rule of DECFSZ and INCFSZ holds of every instruction of their shape. -/
theorem SkipInstr.rule (h : SkipInstr mk opcode value last) : SkipRule mk opcode value := by
  intro f d s
  refine ⟨decode_of_encode (h.encode_eq f d) (h.wellFormed_eq f d), fun v hread => ⟨?toW, ?toPcl, ?toFile, h.cycles_eq hread⟩,
    fun e hread => ?unreadable⟩
  case toW =>
    rw [h.exec_eq, skipOp_of_fread hread (by simp)]
    rfl
  case toPcl =>
    intro hpcl
    rw [h.exec_eq, skipOp_pcl hread (fileLoc_of_selectsPcl hpcl)]
  case toFile =>
    intro hpcl
    rw [h.exec_eq, skipOp_of_fread hread (by simp [hpcl])]
    exact ⟨fun t hwrite => writeBack_f_of_fwrite hwrite, fun e hwrite => writeBack_f_of_fwrite_error hwrite⟩
  case unreadable =>
    rw [h.exec_eq, skipOp_of_fread_error hread]

end

/-- DECFSZ has the shape, and skips when it decrements 0x01 (R151). -/
theorem skipInstr_decfsz : SkipInstr .decfsz 0b001011#6 (fun v => v - 1) 0x01 :=
  ⟨fun _ _ => rfl, fun _ _ => rfl, fun _ _ => rfl, fun _ _ _ => rfl, fun _ _ _ => rfl, fun _ _ _ => rfl, fun _ _ _ => rfl,
    fun _ => sub_eq_zero⟩

/-- INCFSZ has the shape, and skips when it increments 0xFF (R152). -/
theorem skipInstr_incfsz : SkipInstr .incfsz 0b001111#6 (fun v => v + 1) 0xFF :=
  ⟨fun _ _ => rfl, fun _ _ => rfl, fun _ _ => rfl, fun _ _ _ => rfl, fun _ _ _ => rfl, fun _ _ _ => rfl, fun _ _ _ => rfl,
    fun _ => add_eq_zero_iff_eq_neg⟩

/-- Settles O27: both instructions have the shape, and the rule holds of it. -/
theorem decfszAndIncfsz : Obligations.DecfszAndIncfsz := ⟨skipInstr_decfsz.rule, skipInstr_incfsz.rule⟩

end Sys2Proof.Machine
end
section
/-! SUPPORT. BCF and BSF (R155 to R157): one bit of a byte changed by its weight, and their rule from the shape `byteOp`. -/

namespace Sys2Proof.Machine

/-! ### One bit of a byte, on integers -/

/-- Clearing the bits of a mask takes away what the mask selects. -/
theorem and_not_eq_sub {n : Nat} (x m : BitVec n) : x &&& ~~~m = x - (x &&& m) := by
  have hdisjoint : (x &&& ~~~m) &&& (x &&& m) = 0#n := by
    ext i hi
    simp +contextual
  have hparts : x &&& ~~~m ||| x &&& m = x := by
    ext i hi
    simp [← Bool.and_or_distrib_left]
  rw [eq_sub_iff_add_eq, BitVec.add_eq_or_of_and_eq_zero _ _ hdisjoint, hparts]

/-- Setting the bits of a mask adds the part of the mask that is not set yet. -/
theorem or_eq_add_sub {n : Nat} (x m : BitVec n) : x ||| m = x + (m - (x &&& m)) := by
  have hdisjoint : x &&& (m &&& ~~~x) = 0#n := by
    ext i hi
    simp +contextual
  have hparts : x ||| m &&& ~~~x = x ||| m := by
    ext i hi
    simp [Bool.or_and_distrib_left]
  rw [BitVec.and_comm x m, ← and_not_eq_sub, BitVec.add_eq_or_of_and_eq_zero _ _ hdisjoint, hparts]

section
variable (v : Byte) (b : BitVec 3)

/-- The mask of a bit is the bit's weight (R156, R157). -/
theorem bitMask_toNat : (bitMask b).toNat = 2 ^ b.toNat := by
  rw [bitMask, ← BitVec.twoPow_eq, BitVec.toNat_twoPow_of_lt b.isLt]

/-- What the mask of a bit selects is the bit times its weight. -/
theorem and_bitMask_toNat : (v &&& bitMask b).toNat = v.toNat / 2 ^ b.toNat % 2 * 2 ^ b.toNat := by
  rw [BitVec.toNat_and, bitMask_toNat, Nat.and_two_pow, Nat.toNat_testBit]

/-- BCF's byte (R156): the weight of the bit is taken away when the bit is set. -/
theorem and_not_bitMask_eq_ofNat :
    v &&& ~~~bitMask b = BitVec.ofNat 8 (v.toNat - v.toNat / 2 ^ b.toNat % 2 * 2 ^ b.toNat) := by
  have hle : v &&& bitMask b ≤ v := by
    rw [BitVec.le_def, BitVec.toNat_and]
    exact Nat.and_le_left
  rw [← and_bitMask_toNat, ← BitVec.toNat_sub_of_le hle, BitVec.ofNat_toNat, BitVec.setWidth_eq, and_not_eq_sub]

/-- BSF's byte (R157): the weight of the bit is added when the bit is not set. -/
theorem or_bitMask_eq_ofNat :
    v ||| bitMask b = BitVec.ofNat 8 (v.toNat + (1 - v.toNat / 2 ^ b.toNat % 2) * 2 ^ b.toNat) := by
  have hle : v &&& bitMask b ≤ bitMask b := by
    rw [BitVec.le_def, BitVec.toNat_and]
    exact Nat.and_le_right
  rw [Nat.sub_mul, Nat.one_mul, ← and_bitMask_toNat, ← bitMask_toNat, ← BitVec.toNat_sub_of_le hle, BitVec.ofNat_add,
    BitVec.ofNat_toNat, BitVec.ofNat_toNat, BitVec.setWidth_eq, BitVec.setWidth_eq, or_eq_add_sub]

end

/-! ### The rule of BCF and BSF -/

/-- The rule of an instruction that reads its file operand and writes the byte with bit `b` changed, and no flag (R155). -/
theorem bitOpRule_of_byteOp {mk : FileAddr → BitVec 3 → Instr} {opcode : BitVec 4} {value : Byte → BitVec 3 → Byte}
    (changed : Byte → BitVec 3 → Byte)
    (hmk : ∀ f b, FileInstr (mk f b) (opcode ++ b ++ f) f .f (byteOp f .f fun v => plainResult (changed v b)))
    (hchanged : ∀ v b, changed v b = value v b) : BitOpRule mk opcode value := by
  intro f b s
  refine ⟨(hmk f b).decode_eq, ?cycles, fun v hread => ?readable, fun e hread => ?unreadable⟩
  case cycles =>
    rw [(hmk f b).cycles_eq]
    simp only [true_and]
  case readable =>
    rw [(hmk f b).exec_eq, byteOp_of_fread hread, hchanged, advance_eq]
    exact ⟨fun t hwrite => writeBack_f_of_fwrite hwrite, fun e hwrite => writeBack_f_of_fwrite_error hwrite⟩
  case unreadable =>
    rw [(hmk f b).exec_eq]
    exact byteOp_of_fread_error hread

/-- Settles O28: both write back the whole byte, with the bit's weight taken away or added. -/
theorem bcfAndBsf : Obligations.BcfAndBsf :=
  ⟨bitOpRule_of_byteOp (fun v b => v &&& ~~~bitMask b) (fun _ _ => ⟨rfl, rfl, rfl, rfl, rfl, rfl, fun _ => rfl⟩)
      and_not_bitMask_eq_ofNat,
    bitOpRule_of_byteOp (fun v b => v ||| bitMask b) (fun _ _ => ⟨rfl, rfl, rfl, rfl, rfl, rfl, fun _ => rfl⟩)
      or_bitMask_eq_ofNat⟩

end Sys2Proof.Machine
end
section
/-! SUPPORT. BTFSC and BTFSS (R160 to R162): the tested bit on integers, and their rule from the shape `bitSkipOp`. -/

namespace Sys2Proof.Machine

/-- The tested bit has the wanted value when the quotient by its weight has that parity. -/
theorem bitOf_eq_iff (v : Byte) (b : BitVec 3) (wanted : Bool) :
    bitOf v b = wanted ↔ v.toNat / 2 ^ b.toNat % 2 = wanted.toNat := by
  rw [bitOf, getLsbD_eq_decide]
  cases wanted with
  | false => rw [decide_eq_false_iff_not, Nat.mod_two_not_eq_one, Bool.toNat_false]
  | true => rw [decide_eq_true_iff, Bool.toNat_true]

section
variable {s : State} {f : FileAddr} {b : BitVec 3} {wanted : Bool}

/-- An operand that cannot be read refuses the instruction. -/
theorem bitSkipOp_of_fread_error {e : Refusal} (h : fread s f = .error e) : bitSkipOp f b wanted s = .refused e := by
  unfold bitSkipOp
  rw [h]

/-- An operand that can be read moves pc by two or by one, and nothing else changes. -/
theorem bitSkipOp_of_fread {v : Byte} (h : fread s f = .ok v) :
    bitSkipOp f b wanted s = .next { s with pc := pcPlus s (if bitOf v b = wanted then 2 else 1) } := by
  unfold bitSkipOp
  simp only [h, skipNext_or_advance_eq]

end

/-- The instructions `mk f b` have the words of `opcode` (R92), the base cycle count 1 and no file destination (R279), and execute as
`bitSkipOp`; the skip is taken when bit `b` of the operand is `wanted`. -/
structure BitSkipInstr (mk : FileAddr → BitVec 3 → Instr) (opcode : BitVec 4) (wanted : Bool) : Prop where
  encode_eq : ∀ f b, encode (mk f b) = opcode ++ b ++ f
  wellFormed_eq : ∀ f b, (mk f b).wellFormed = true
  baseCycles_eq : ∀ f b, baseCycles (mk f b) = 1
  skipTaken_eq : ∀ f b s, skipTaken (mk f b) s = (fread s f).toOption.any fun v => bitOf v b == wanted
  storeTarget_eq : ∀ f b s, storeTarget (mk f b) s = none
  slowAccess_eq : ∀ f b s, slowAccess (mk f b) s = indfInProgram s f
  exec_eq : ∀ f b s, exec (mk f b) s = bitSkipOp f b wanted s

section
variable {mk : FileAddr → BitVec 3 → Instr} {opcode : BitVec 4} {wanted : Bool}

/-- The skip that the cycle count sees is the one that the tested bit decides (R161, R162, R279). -/
theorem BitSkipInstr.skipTaken_iff (h : BitSkipInstr mk opcode wanted) {s : State} {f : FileAddr} {v : Byte}
    (hread : fread s f = .ok v) (b : BitVec 3) : skipTaken (mk f b) s = true ↔ bitOf v b = wanted := by
  rw [h.skipTaken_eq, hread]
  exact beq_iff_eq

/-- The rule of BTFSC and BTFSS holds of every instruction of their shape. -/
theorem BitSkipInstr.rule (h : BitSkipInstr mk opcode wanted) : BitSkipRule mk opcode wanted.toNat := by
  intro f b s
  refine ⟨decode_of_encode (h.encode_eq f b) (h.wellFormed_eq f b), fun v hread => ⟨?readable, ?cycles⟩,
    fun e hread => ?unreadable⟩
  case readable =>
    rw [h.exec_eq, bitSkipOp_of_fread hread]
    simp only [bitOf_eq_iff]
  case cycles =>
    have hstore : (storeTarget (mk f b) s == some (.core .pcl)) = false := by
      rw [h.storeTarget_eq]
      rfl
    rw [cycles_of_storeTarget_ne_pcl (h.baseCycles_eq f b) (h.slowAccess_eq f b s) hstore]
    simp only [h.skipTaken_iff hread b, bitOf_eq_iff]
  case unreadable =>
    rw [h.exec_eq, bitSkipOp_of_fread_error hread]

end

/-- BTFSC has the shape, and skips on a clear bit (R161). -/
theorem bitSkipInstr_btfsc : BitSkipInstr .btfsc 0b0110#4 false :=
  ⟨fun _ _ => rfl, fun _ _ => rfl, fun _ _ => rfl, fun _ _ _ => by simp only [beq_false]; rfl, fun _ _ _ => rfl,
    fun _ _ _ => rfl, fun _ _ _ => rfl⟩

/-- BTFSS has the shape, and skips on a set bit (R162). -/
theorem bitSkipInstr_btfss : BitSkipInstr .btfss 0b0111#4 true :=
  ⟨fun _ _ => rfl, fun _ _ => rfl, fun _ _ => rfl, fun _ _ _ => by simp only [beq_true]; rfl, fun _ _ _ => rfl,
    fun _ _ _ => rfl, fun _ _ _ => rfl⟩

/-- Settles O29: both instructions have the shape, and the rule holds of it. -/
theorem btfscAndBtfss : Obligations.BtfscAndBtfss := ⟨bitSkipInstr_btfsc.rule, bitSkipInstr_btfss.rule⟩

end Sys2Proof.Machine
end
section
/-! SUPPORT. ADDLW and SUBLW (R166, R172): the literal operation on W that affects C, DC and Z. -/

namespace Sys2Proof.Machine

/-- A literal operation that affects C, DC and Z (R165). -/
theorem literalOp_allFlags (s : State) (r : Byte) (carry digitCarry zero : Bool) :
    literalOp { value := r, flags := { c := some carry, dc := some digitCarry, z := some zero } } s =
      .next { s with pc := pcPlus s 1, w := r, c := carry, dc := digitCarry, z := zero } := by
  rw [literalOp, advance_eq]
  rfl

/-- ADDLW executes as the sum of W and the literal, without an incoming carry (R166). -/
theorem exec_addlw (k : Byte) (s : State) : exec (.addlw k) s = literalOp (add8 s.w k false) s := rfl

/-- SUBLW executes as the literal less W, without an incoming borrow (R172). -/
theorem exec_sublw (k : Byte) (s : State) : exec (.sublw k) s = literalOp (sub8 k s.w true) s := rfl

/-- Settles O30: a sum and a difference on W; SUBLW's Z is stated with W on the left. -/
theorem addlwAndSublw : Obligations.AddlwAndSublw := by
  intro k s
  refine ⟨decode_of_encode rfl rfl, decode_of_encode rfl rfl, rfl, rfl, ?addlw, ?sublw⟩
  case addlw => rw [exec_addlw, add8_false, literalOp_allFlags]
  case sublw =>
    have hzero : decide (s.w = k) = decide (k = s.w) := decide_eq_decide.mpr eq_comm
    rw [exec_sublw, sub8_true, literalOp_allFlags, hzero]

end Sys2Proof.Machine
end
section
/-! SUPPORT. Branches and the ways back (R181, R183, R184, R187 to R190, R235, R237): the targets of BRA, BRW and GOTO, the return from
a call, and the return from an interrupt. -/

namespace Sys2Proof.Machine

/-! ### Branch targets -/

section
variable (s : State)

/-- Two displacements from pc add up (R27). -/
theorem pcPlus_add (m n : Int) : pcPlus s (m + n) = pcPlus s m + BitVec.ofInt 15 n := by
  unfold pcPlus
  rw [← Int.add_assoc, BitVec.ofInt_add]

/-- The target of BRA on integers (R183). -/
theorem braTarget_eq_pcPlus (k : Int) : braTarget s k = pcPlus s (1 + k) := by
  rw [pcPlus_add, pcPlus_one]
  rfl

/-- The target of BRW on integers (R184). -/
theorem brwTarget_eq_pcPlus : brwTarget s = pcPlus s (1 + s.w.toNat) := by
  rw [pcPlus_add, pcPlus_one, BitVec.ofInt_natCast, BitVec.ofNat_toNat]
  rfl

end

/-- Settles O32: each instruction sets pc alone, to its target on integers. -/
theorem branchTargets : Obligations.BranchTargets := by
  intro k a s
  refine ⟨fun hk => decode_of_encode rfl hk, decode_of_encode rfl rfl, decode_of_encode rfl rfl, rfl, rfl, rfl, ?bra, ?brw, ?goto⟩
  case bra =>
    rw [← braTarget_eq_pcPlus]
    rfl
  case brw =>
    rw [← brwTarget_eq_pcPlus]
    rfl
  case goto =>
    rw [← pageTarget_eq_ofNat]
    rfl

/-! ### Return from a call -/

/-- RETURN executes as the return from a subroutine (R188). -/
theorem exec_ret (s : State) : exec .ret s = returnFrom s := rfl

/-- A return from a stack with entries (R42, R181). -/
theorem returnFrom_of_cons {s : State} {r : ProgAddr} {rest : List ProgAddr} (h : s.stack = r :: rest) :
    returnFrom s = .next { s with stack := rest, pc := r } := by
  unfold returnFrom
  rw [pop_of_cons h]
  rfl

/-- Settles O34: RETLW's W, written before the pop, is not touched by it. -/
theorem returnsPopTheReturnAddress : Obligations.ReturnsPopTheReturnAddress := by
  refine ⟨decode_of_encode rfl rfl, fun k s r rest => ⟨decode_of_encode rfl rfl, rfl, rfl, fun hstack => ⟨?ret, ?retlw⟩⟩⟩
  case ret => exact returnFrom_of_cons hstack
  case retlw =>
    have hkept : (s.setW k).stack = r :: rest := hstack
    exact returnFrom_of_cons hkept

/-- Settles O37: the call's push has room, and the return pops what it pushed. -/
theorem returnUndoesCall : Obligations.ReturnUndoesCall := by
  intro s k hroom
  have hcall : exec (.call k) s = _ := callTo_of_room _ hroom
  exact ⟨_, _, hcall, (exec_ret _).trans (returnFrom_of_cons rfl), rfl⟩

/-! ### Return from an interrupt -/

/-- STATUS_SHAD keeps C, DC and Z in its bits 0, 1 and 2 (R47, R235). -/
theorem statusForShadow_bits (s : State) :
    s.statusForShadow.getLsbD 0 = s.c ∧ s.statusForShadow.getLsbD 1 = s.dc ∧ s.statusForShadow.getLsbD 2 = s.z := by
  have hbits : ∀ z dc c : Bool, let shadow : BitVec 3 := BitVec.ofBool z ++ BitVec.ofBool dc ++ BitVec.ofBool c
      shadow.getLsbD 0 = c ∧ shadow.getLsbD 1 = dc ∧ shadow.getLsbD 2 = z := by decide
  exact hbits s.z s.dc s.c

/-- Interrupt entry that goes on with AUTO_CONTEXT: what R235 writes. -/
theorem interruptEntry_ok_of_auto {s t : State} (hauto : s.cfg.autoContext = true) (h : interruptEntry s = .ok t) :
    t =
      { s with
        stack := s.pc :: s.stack, slot15 := if s.stack.length = 15 then s.pc else s.slot15
        pc := s.cfg.intVector, gie := false, wShad := s.w, statusShad := s.statusForShadow, bsrShad := s.bsr
        pclathShad := s.pclath, fsr0Shad := s.fsr0, fsr1Shad := s.fsr1, unwrittenShadows := [] } := by
  obtain ⟨u, hpush, rfl⟩ := interruptEntry_ok h
  obtain ⟨-, rfl⟩ := push_ok hpush
  unfold State.saveContext
  rw [if_pos hauto]
  rfl

/-- Settles O57: the entry has pushed pc and written every shadow register, so RETFIE is not refused and restores what it saved. -/
theorem retfieUndoesInterruptEntry : Obligations.RetfieUndoesInterruptEntry := by
  intro s t hauto hgie hentry
  have hentered := interruptEntry_ok_of_auto hauto hentry
  have hcfg : t.cfg = s.cfg := by rw [hentered]
  have hstack : t.stack = s.pc :: s.stack := by rw [hentered]
  have hsaved : t.unwrittenShadows = [] := by rw [hentered]
  obtain ⟨hc, hdc, hz⟩ := statusForShadow_bits s
  obtain ⟨-, -, hrestores, -⟩ := retfieReturnsAndRestores.2 t s.pc s.stack hstack
  refine ⟨_, hrestores (hcfg ▸ hauto) (.inr hsaved), ?_⟩
  subst hentered
  simp only [hc, hdc, hz, hgie]

end Sys2Proof.Machine
end
section
/-! SUPPORT. Inherent operations (R195 to R201): what CLRWDT, NOP, OPTION, TRIS and SLEEP do, and MOVWF to the register that OPTION or
TRIS writes. -/

namespace Sys2Proof.Machine

section
variable {s : State} {f : FileAddr}

/-- No INDFn stands above the core registers, whatever the order of these (R50, R62). -/
theorem indfPointer_of_not_core (hf : 12 ≤ f.toNat) : s.indfPointer f = none := by
  have hcore : coreAt s.cfg f.toNat = none := if_neg (by omega)
  unfold State.indfPointer
  rw [hcore]

/-- MOVWF to a special function register that R66 defines: the register takes W and pc moves on (R64, R138). -/
theorem exec_movwf_sfr {l : Loc} {t : State} (hn : s.cfg.nbanks = 32) (hf : 12 ≤ f.toNat)
    (hl : sfrMap.lookup (s.fileAddr f) = some l) (hwrite : writeLoc s.advance l .noFlags s.w = .ok t) :
    exec (.movwf f) s = .next t := by
  obtain ⟨-, hbanked⟩ := direct_access (n := s.advance) (indfPointer_of_not_core hf) rfl .noFlags s.w
  obtain ⟨-, hregister⟩ := sfr_access (s := s.advance) hn hl .noFlags s.w
  have hfile : fwrite s s.advance f .noFlags s.w = .ok t := hbanked.trans (hregister.trans hwrite)
  exact writeBack_f_of_fwrite (x := plainResult s.w) hfile

end

/-- Settles O38: each instruction moves pc on and writes what its rule names; in bank 1 the file addresses of MOVWF select the same
registers. -/
theorem clrwdtNopOptionTris : Obligations.ClrwdtNopOptionTris := by
  refine ⟨decode_of_encode rfl rfl, decode_of_encode rfl rfl, decode_of_encode rfl rfl, decode_of_encode rfl rfl,
    decode_of_encode rfl rfl, decode_of_encode rfl rfl, fun s => ?_⟩
  rw [pcPlus_one]
  refine ⟨rfl, rfl, rfl, rfl, rfl, rfl, rfl, rfl, rfl, rfl, rfl, rfl, fun hbsr hn => ?movwf⟩
  case movwf =>
    have hbank : ∀ f, s.fileAddr f = 1#5 ++ f := fun f => congrArg (· ++ f) hbsr
    exact ⟨exec_movwf_sfr (l := .optionReg) hn (by decide) (by rw [hbank]; rfl) rfl,
      exec_movwf_sfr (l := .trisA) hn (by decide) (by rw [hbank]; rfl) rfl,
      exec_movwf_sfr (l := .trisB) hn (by decide) (by rw [hbank]; rfl) rfl,
      exec_movwf_sfr (l := .trisC) hn (by decide) (by rw [hbank]; rfl) rfl⟩

/-- SLEEP decides by the enabled request (R200). -/
theorem exec_sleep (s : State) :
    exec .sleep s =
      if s.intReq then .next { s with pc := pcPlus s 1 }
      else .next { s with pc := pcPlus s 1, wdt := 0, wdtPre := 0, nTO := true, nPD := false, sleeping := true } := by
  rw [pcPlus_one]
  rfl

/-- Settles O40: the two branches of R200. -/
theorem sleepEntersSleepModeOrActsAsNop : Obligations.SleepEntersSleepModeOrActsAsNop := by
  refine ⟨decode_of_encode rfl rfl, fun s => ⟨rfl, fun hquiet => ?_, fun hpending => ?_⟩⟩
  · rw [exec_sleep, if_neg (by simp [hquiet])]
  · rw [exec_sleep, if_pos hpending]

end Sys2Proof.Machine
end
section
/-! SUPPORT. ADDFSR, MOVIW and MOVWI (R210 to R217, R279): addresses and moved pointers on integers, the pointers that select a byte of
an FSR, the cycles, the loads and the stores. -/

namespace Sys2Proof.Machine

/-! ### Pointers on integers -/

section
variable (p : Ptr)

/-- A displaced pointer is a sum modulo 2^16 (R210). -/
theorem ptrPlus_eq_add (k : Int) : ptrPlus p k = p + BitVec.ofInt 16 k := by
  unfold ptrPlus
  rw [BitVec.ofInt_add, BitVec.ofInt_natCast, BitVec.ofNat_toNat, BitVec.setWidth_eq]

/-- The address of a `k[n]` form on integers (R214, R216). -/
theorem indexedAddress_eq_ptrPlus (k : Int) : indexedAddress p k = ptrPlus p k := (ptrPlus_eq_add p k).symm

/-- The address of an `mm` form on integers: a pre form moves the pointer before the access (R213). -/
theorem modeAddress_eq_ptrPlus (mm : FsrMode) : modeAddress mm p = ptrPlus p (modeBefore mm) := by
  rw [ptrPlus_eq_add]
  cases mm with
  | preInc => rfl
  | preDec => exact BitVec.sub_eq_add_neg p 1
  | postInc => exact (BitVec.add_zero p).symm
  | postDec => exact (BitVec.add_zero p).symm

/-- The pointer an `mm` form leaves, on integers (R213, R215). -/
theorem modeStepped_eq_ptrPlus (mm : FsrMode) : modeStepped mm p = ptrPlus p (modeTotal mm) := by
  rw [ptrPlus_eq_add]
  cases mm with
  | preInc => rfl
  | preDec => exact BitVec.sub_eq_add_neg p 1
  | postInc => rfl
  | postDec => exact BitVec.sub_eq_add_neg p 1

end

/-- Writing FSR[n] changes that pointer alone (R28). -/
theorem setFsr_eq_withFsr (s : State) (n : FsrSel) (p : Ptr) : s.setFsr n p = withFsr s n p := by cases n <;> rfl

/-! ### Pointers that select a core register -/

section
variable {c : Params} {r : CoreReg}

/-- No special function register of R66 is a core register. -/
theorem sfrLoc_ne_core (a : DataAddr) : sfrLoc c a ≠ .ok (.core r) := by
  have hmap : ∀ e ∈ sfrMap, e.2 ≠ .core r := by simp [sfrMap]
  unfold sfrLoc
  split
  next l hl =>
    rintro ⟨⟩
    obtain ⟨before, after, hsplit, -⟩ := List.lookup_eq_some_iff.1 hl
    exact hmap (a, .core r) (by rw [hsplit]; simp) rfl
  next =>
    split
    · rintro ⟨⟩
    · rintro ⟨⟩

/-- With the spec's map a data address selects a core register exactly by its offset in the bank (R50, R62). -/
theorem dataLoc_eq_core_iff (hmap : hasSpecMap c) (a : DataAddr) :
    dataLoc c a = .ok (.core r) ↔ coreRegMapDefault[a.toNat % 128]? = some r := by
  have hbank := bank_lt_nbanks hmap a
  rw [← coreAt_spec hmap]
  refine ⟨fun hloc => ?_, dataLoc_core hbank⟩
  cases hcore : coreAt c (a.toNat % 128) with
  | some q =>
    rw [dataLoc_core hbank hcore] at hloc
    cases hloc
    rfl
  | none =>
    rw [coreAt_spec hmap, List.getElem?_eq_none_iff] at hcore
    by_cases hcommon : 0x70 ≤ a.toNat % 128
    · rw [dataLoc_common hbank hcommon] at hloc
      cases hloc
    · rw [dataLoc_banked hbank hcore (by omega)] at hloc
      split at hloc
      · exact absurd hloc (sfrLoc_ne_core a)
      · split at hloc <;> cases hloc

/-- The linear region starts at offset 0x20 of each bank, above the core registers (R76). -/
theorem linearData_offset (i : Nat) : 12 ≤ (linearData i).toNat % 128 := by
  unfold linearData
  rw [BitVec.toNat_ofNat]
  omega

/-- With the spec's map a pointer selects a core register exactly in the traditional region, by its offset there (R50, R73 to R77). -/
theorem indLoc_eq_core_iff (hmap : hasSpecMap c) (p : Ptr) :
    indLoc c p = .ok (.core r) ↔ p.toNat ≤ 0x0FFF ∧ coreRegMapDefault[p.toNat % 128]? = some r := by
  by_cases htraditional : p.toNat ≤ 0x0FFF
  · have haddr : (BitVec.ofNat 12 p.toNat).toNat = p.toNat := by rw [BitVec.toNat_ofNat, Nat.mod_eq_of_lt (by omega)]
    rw [indLoc_traditional c htraditional, dataLoc_eq_core_iff hmap, haddr, and_iff_right htraditional]
  · refine iff_of_false (fun hloc => ?_) (fun h => htraditional h.1)
    by_cases hprogram : 0x8000 ≤ p.toNat
    · rw [indLoc_program c hprogram] at hloc
      cases hloc
    · by_cases hlinear : 0x2000 ≤ p.toNat ∧ p.toNat ≤ 0x29AF
      · rw [indLoc_linearData c hlinear.1 hlinear.2, dataLoc_eq_core_iff hmap,
          List.getElem?_eq_none (linearData_offset p.toNat)] at hloc
        cases hloc
      · rw [indLoc_reserved c (by omega)] at hloc
        cases hloc

end

/-- Each core register stands at one offset only (R50). -/
theorem coreRegMap_eq_some_iff {r : CoreReg} {place : Nat} (hplace : coreRegMapDefault[place]? = some r) (off : Nat) :
    coreRegMapDefault[off]? = some r ↔ off = place := by
  have hnodup : coreRegMapDefault.Nodup := by decide
  refine ⟨fun hoff => ?_, fun hoff => hoff ▸ hplace⟩
  obtain ⟨hlt, -⟩ := List.getElem?_eq_some_iff.1 hoff
  exact (List.getElem?_inj hlt hnodup).1 (hoff.trans hplace.symm)

/-- The condition that refuses an `mm` form, as a location that the pointer selects (R217). -/
theorem addressesOwnFsr_iff (c : Params) (n : FsrSel) (ea : Ptr) :
    addressesOwnFsr c n ea = true ↔ ∃ l, isFsrByte n l = true ∧ indLoc c ea = .ok l := by
  unfold addressesOwnFsr
  cases indLoc c ea <;> simp [Except.toOption]

/-- R217 on integers: with the spec's map an `mm` form is refused exactly at a self-reference. -/
theorem addressesOwnFsr_iff_selfReference {c : Params} (hmap : hasSpecMap c) (n : FsrSel) (ea : Ptr) :
    addressesOwnFsr c n ea = true ↔ selfReference n ea.toNat := by
  rw [addressesOwnFsr_iff]
  cases n with
  | fsr0 =>
    simp only [isFsrByte, Bool.or_eq_true, beq_iff_eq, exists_eq_or_imp, exists_eq_left, indLoc_eq_core_iff hmap,
      coreRegMap_eq_some_iff (r := .fsr0l) (place := 4) rfl, coreRegMap_eq_some_iff (r := .fsr0h) (place := 5) rfl, ← and_or_left]
    rfl
  | fsr1 =>
    simp only [isFsrByte, Bool.or_eq_true, beq_iff_eq, exists_eq_or_imp, exists_eq_left, indLoc_eq_core_iff hmap,
      coreRegMap_eq_some_iff (r := .fsr1l) (place := 6) rfl, coreRegMap_eq_some_iff (r := .fsr1h) (place := 7) rfl, ← and_or_left]
    rfl

/-! ### Loads, stores and their cycles -/

section
variable {s : State} {i : Instr} {ea : Ptr}

/-- The cycles of an instruction with base count 1 and no skip that accesses FSR space at `ea` (R211, R279). -/
theorem cycles_of_pointer (hbase : baseCycles i = 1) (hskip : skipTaken i s = false) (hslow : slowAccess i s = ea.getLsbD 15) :
    cycles i s =
      1 + (if storeTarget i s = some (.core .pcl) then 1 else 0) + (if 0x8000 ≤ ea.toNat then 1 else 0) := by
  unfold cycles
  rw [hbase, hskip, hslow, ptr_msb]
  simp only [Bool.false_or, beq_iff_eq, decide_eq_true_eq]

/-- The cycles of a MOVIW, which stores nowhere: Note 2 alone (R211, R279). -/
theorem cycles_of_load (hbase : baseCycles i = 1) (hskip : skipTaken i s = false) (hslow : slowAccess i s = ea.getLsbD 15)
    (htarget : storeTarget i s = none) : cycles i s = if 0x8000 ≤ ea.toNat then 2 else 1 := by
  rw [cycles_of_pointer hbase hskip hslow, htarget, if_neg nofun]
  split <;> rfl

/-- The cycles of a MOVWI: Note 2, and one more for a store to PCL, which no pointer into program memory selects (R211, R279). -/
theorem cycles_of_store (hbase : baseCycles i = 1) (hskip : skipTaken i s = false) (hslow : slowAccess i s = ea.getLsbD 15)
    (htarget : storeTarget i s = (indLoc s.cfg ea).toOption) :
    (indLoc s.cfg ea ≠ .ok (.core .pcl) → cycles i s = if 0x8000 ≤ ea.toNat then 2 else 1) ∧
      (indLoc s.cfg ea = .ok (.core .pcl) → cycles i s = 2) := by
  rw [cycles_of_pointer hbase hskip hslow, htarget]
  refine ⟨fun hother => ?_, fun hpcl => ?_⟩
  · have hnot : (indLoc s.cfg ea).toOption ≠ some (.core .pcl) := by
      cases hloc : indLoc s.cfg ea with
      | error e => rintro ⟨⟩
      | ok l =>
        rintro ⟨⟩
        exact hother hloc
    rw [if_neg hnot]
    split <;> rfl
  · have hdata : ¬0x8000 ≤ ea.toNat := by
      intro hprogram
      rw [indLoc_program s.cfg hprogram] at hpcl
      cases hpcl
    rw [hpcl, if_neg hdata]
    rfl

variable {next : State} {v : Byte} {e : Refusal}

/-- A load that can read sets W, and Z by it (R213, R214). -/
theorem loadIndirect_of_indRead (h : indRead s ea = .ok v) :
    loadIndirect s next ea = .next { next with w := v, z := decide (v = 0) } := by
  unfold loadIndirect
  rw [h]
  simp only [zResult_eq (isZero_eq_decide (Iff.refl (v = 0)))]
  rfl

/-- A load that cannot read is refused (R213, R214). -/
theorem loadIndirect_of_indRead_error (h : indRead s ea = .error e) : loadIndirect s next ea = .refused e := by
  unfold loadIndirect
  rw [h]

end

/-! ### The instructions -/

/-- What a MOVWI answers after its store, `after` being what it does to the state then (R215, R216). -/
def storeOutcome (after : State → State) : Except Refusal State → Result
  | .ok t => .next (after t)
  | .error e => .refused e

section
variable (n : FsrSel) (mm : FsrMode) (k : Int) (s : State)

/-- ADDFSR with pc and the pointer on integers (R212). -/
theorem exec_addfsr :
    exec (.addfsr n k) s = .next (withFsr { s with pc := pcPlus s 1 } n (ptrPlus (s.fsr n) k)) := by
  rw [← advance_eq, ← indexedAddress_eq_ptrPlus, ← setFsr_eq_withFsr]
  rfl

/-- MOVIW indexed is a load from the displaced pointer (R214). -/
theorem exec_moviwIndexed :
    exec (.moviwIndexed n k) s = loadIndirect s { s with pc := pcPlus s 1 } (ptrPlus (s.fsr n) k) := by
  rw [← advance_eq, ← indexedAddress_eq_ptrPlus]
  rfl

/-- MOVWI indexed is a store through the displaced pointer (R216). -/
theorem exec_movwiIndexed :
    exec (.movwiIndexed n k) s =
      storeOutcome id (indWrite { s with pc := pcPlus s 1 } (ptrPlus (s.fsr n) k) .noFlags s.w) := by
  rw [← advance_eq, ← indexedAddress_eq_ptrPlus]
  have harm : exec (.movwiIndexed n k) s = execMovwiIndexed n k s := rfl
  rw [harm, execMovwiIndexed]
  cases indWrite s.advance (indexedAddress (s.fsr n) k) .noFlags s.w <;> rfl

/-- MOVIW with modifier is a load beside which the pointer moves, or refused (R213, R217). -/
theorem exec_moviwMode :
    exec (.moviwMode n mm) s =
      if addressesOwnFsr s.cfg n (ptrPlus (s.fsr n) (modeBefore mm)) then .refused .modifiesOwnFsr
      else
        loadIndirect s (withFsr { s with pc := pcPlus s 1 } n (ptrPlus (s.fsr n) (modeTotal mm)))
          (ptrPlus (s.fsr n) (modeBefore mm)) := by
  rw [← advance_eq, ← modeAddress_eq_ptrPlus, ← modeStepped_eq_ptrPlus, ← setFsr_eq_withFsr]
  rfl

/-- MOVWI with modifier is a store after which the pointer moves, or refused (R215, R217). -/
theorem exec_movwiMode :
    exec (.movwiMode n mm) s =
      if addressesOwnFsr s.cfg n (ptrPlus (s.fsr n) (modeBefore mm)) then .refused .modifiesOwnFsr
      else
        storeOutcome (fun t => withFsr t n (ptrPlus (s.fsr n) (modeTotal mm)))
          (indWrite { s with pc := pcPlus s 1 } (ptrPlus (s.fsr n) (modeBefore mm)) .noFlags s.w) := by
  rw [← advance_eq, ← modeAddress_eq_ptrPlus, ← modeStepped_eq_ptrPlus]
  simp only [← setFsr_eq_withFsr]
  have harm : exec (.movwiMode n mm) s = execMovwiMode n mm s := rfl
  rw [harm, execMovwiMode]
  cases indWrite s.advance (modeAddress mm (s.fsr n)) .noFlags s.w <;> rfl

end

/-- Writing FSR[n] and writing W and Z do not meet. -/
theorem withFsr_w_z (s : State) (n : FsrSel) (p : Ptr) (v : Byte) (zero : Bool) :
    { withFsr s n p with w := v, z := zero } = withFsr { s with w := v, z := zero } n p := by cases n <;> rfl

/-- Settles O41: the displaced pointer is a sum modulo 2^16. -/
theorem addfsrWraps : Obligations.AddfsrWraps :=
  fun n k s => ⟨fun hk => decode_of_encode rfl hk, rfl, exec_addfsr n k s⟩

/-- Settles O43: a load from, and a store through, the displaced pointer. -/
theorem indexedMoves : Obligations.IndexedMoves := by
  intro n k s
  have hea := indexedAddress_eq_ptrPlus (s.fsr n) k
  have hslow := congrArg (BitVec.getLsbD · 15) hea
  obtain ⟨hcycles, hcyclesPcl⟩ := cycles_of_store (s := s) (i := .movwiIndexed n k) rfl rfl hslow
    (congrArg (fun ea => (indLoc s.cfg ea).toOption) hea)
  refine ⟨fun hk => ⟨decode_of_encode rfl hk, decode_of_encode rfl hk⟩, cycles_of_load rfl rfl hslow rfl,
    fun v hread => ?load, fun e hread => ?loadRefused, hcycles, hcyclesPcl, fun t hwrite => ?store, fun e hwrite => ?storeRefused⟩
  case load => rw [exec_moviwIndexed, loadIndirect_of_indRead hread]
  case loadRefused => rw [exec_moviwIndexed, loadIndirect_of_indRead_error hread]
  case store => rw [exec_movwiIndexed, hwrite, storeOutcome, id]
  case storeRefused => rw [exec_movwiIndexed, hwrite, storeOutcome]

/-- Settles O42: off a self-reference a load beside which the pointer moves. -/
theorem moviwWithModifier : Obligations.MoviwWithModifier := by
  intro n mm s hmap
  have hea := modeAddress_eq_ptrPlus (s.fsr n) mm
  have hown := addressesOwnFsr_iff_selfReference hmap n (ptrPlus (s.fsr n) (modeBefore mm))
  refine ⟨decode_of_encode rfl rfl, cycles_of_load rfl rfl (congrArg (BitVec.getLsbD · 15) hea) rfl,
    fun hother v hread => ?load, fun hother e hread => ?loadRefused, fun hself => ?self⟩
  case load => rw [exec_moviwMode, if_neg (mt hown.1 hother), loadIndirect_of_indRead hread, withFsr_w_z]
  case loadRefused => rw [exec_moviwMode, if_neg (mt hown.1 hother), loadIndirect_of_indRead_error hread]
  case self => rw [exec_moviwMode, if_pos (hown.2 hself)]

/-- Settles O44: off a self-reference a store after which the pointer moves. -/
theorem movwiWithModifier : Obligations.MovwiWithModifier := by
  intro n mm s hmap
  have hea := modeAddress_eq_ptrPlus (s.fsr n) mm
  have hown := addressesOwnFsr_iff_selfReference hmap n (ptrPlus (s.fsr n) (modeBefore mm))
  obtain ⟨hcycles, hcyclesPcl⟩ := cycles_of_store (s := s) (i := .movwiMode n mm) rfl rfl
    (congrArg (BitVec.getLsbD · 15) hea) (congrArg (fun ea => (indLoc s.cfg ea).toOption) hea)
  refine ⟨decode_of_encode rfl rfl, hcycles, hcyclesPcl, fun hother t hwrite => ?store, fun hother e hwrite => ?storeRefused,
    fun hself => ?self⟩
  case store => rw [exec_movwiMode, if_neg (mt hown.1 hother), hwrite, storeOutcome]
  case storeRefused => rw [exec_movwiMode, if_neg (mt hown.1 hother), hwrite, storeOutcome]
  case self => rw [exec_movwiMode, if_pos (hown.2 hself)]

end Sys2Proof.Machine
end
section
/-! SUPPORT. Lines 1 to 4 of the machine step (R230, R232, R234 to R236, R247): resets first, the request inputs, the awake core, and a
watchdog time-out. -/

namespace Sys2Proof.Machine

/-! ### Resets and time-outs -/

section
variable {s : State}

/-- Line 1: an external reset ends the step, whatever else the environment chooses (R234). -/
theorem envPhase_of_extReset {k : ExtReset} (hreset : s.choice.extReset = some k) :
    envPhase s = .ends (.next (deviceReset k.kind s.dropChoice)) := by
  unfold envPhase
  rw [hreset]

/-- Line 2 where a time-out comes: a wake-up of a sleeping core, a reset of an awake one (R247). -/
theorem envPhase_of_timeout (hreset : s.choice.extReset = none) (htimeout : timeoutComes s) :
    envPhase s =
      if s.sleeping then awakePhase s.choice { afterInputs s with nTO := false, sleeping := false }
      else .ends (.next (deviceReset .watchdog (afterInputs s))) := by
  unfold envPhase
  rw [hreset]
  simp only [inputPhase]
  rw [setInputs_dropChoice, if_pos ((timeout_iff s).2 htimeout)]
  rfl

/-- An awake core without reset and time-out goes from the inputs of line 2 to line 4 (R236). -/
theorem envPhase_awake (hreset : s.choice.extReset = none) (htimeout : ¬timeoutComes s) (hawake : s.sleeping = false) :
    envPhase s = awakePhase s.choice (afterInputs s) := by
  have hstill : ¬(afterInputs s).sleeping = true := Bool.eq_false_iff.1 hawake
  unfold envPhase
  rw [hreset]
  simp only [inputPhase]
  rw [setInputs_dropChoice, if_neg (mt (timeout_iff s).1 htimeout), if_neg hstill]

/-- Line 4 of an awake core has the outcomes of line 4 after a wake-up: the inputs write none of the counts, the stack, the
configuration. -/
theorem wakesTo_of_awake (hreset : s.choice.extReset = none) (htimeout : ¬timeoutComes s) (hawake : s.sleeping = false) :
    WakesTo s (afterInputs s) :=
  wakesTo_of_awakePhase (envPhase_awake hreset htimeout hawake) rfl rfl rfl rfl rfl

end

/-- Settles O58: line 1 ends the step at an external reset, line 2 at a time-out in an awake core. -/
theorem resetsComeFirst : Obligations.ResetsComeFirst := by
  intro s
  refine ⟨fun k hreset => step_of_ends (envPhase_of_extReset hreset), fun hreset htimeout hawake => ?_⟩
  have hphase := envPhase_of_timeout hreset htimeout
  rw [hawake] at hphase
  exact step_of_ends hphase

/-- Settles O55: line 4 of an awake core, with an entry that is possible and chosen, on a stack with room. -/
theorem interruptEntrySavesAndVectors : Obligations.InterruptEntrySavesAndVectors := by
  refine ⟨rfl, rfl, fun s hreset htimeout hawake htaken hgie hreq hroom => ?_⟩
  obtain ⟨-, -, hentry⟩ := wakesTo_of_awake hreset htimeout hawake
  exact (hentry hgie hreq (.inl htaken)).1 hroom

/-! ### The request inputs -/

/-- The flag bits that line 2 sets, bit by bit: TMR0IF, INTF and IOCIF (R230 (a), R37). -/
theorem inputFlags_getLsbD (tmr0if intf iocif : Bool) (i : Nat) :
    (0b0000#4 ++ BitVec.ofBool tmr0if ++ BitVec.ofBool intf ++ BitVec.ofBool iocif).getLsbD i = true ↔
      (i = 2 ∧ tmr0if = true) ∨ (i = 1 ∧ intf = true) ∨ (i = 0 ∧ iocif = true) := by
  simp only [BitVec.getLsbD_append, BitVec.getLsbD_ofBool]
  match i with
  | 0 => simp
  | 1 => simp
  | 2 => simp
  | n + 3 => simp

/-- INTCON after line 2, bit by bit: what stood there and what the environment sets (R230 (a)). -/
theorem setInputs_intcon_getLsbD (e : EnvChoice) (s : State) (i : Nat) :
    (s.setInputs e).intcon.getLsbD i = true ↔
      s.intcon.getLsbD i = true ∨ (i = 2 ∧ e.setTmr0if = true) ∨ (i = 1 ∧ e.setIntf = true) ∨ (i = 0 ∧ e.setIocif = true) := by
  unfold State.setInputs
  rw [BitVec.getLsbD_or, Bool.or_eq_true, inputFlags_getLsbD]

/-- IntReq is the disjunction of the four enabled requests (R232). -/
theorem intReq_iff (s : State) :
    s.intReq = true ↔
      (s.intcon.getLsbD 2 = true ∧ s.intcon.getLsbD 5 = true) ∨ (s.intcon.getLsbD 1 = true ∧ s.intcon.getLsbD 4 = true) ∨
      (s.intcon.getLsbD 0 = true ∧ s.intcon.getLsbD 3 = true) ∨ (s.intcon.getLsbD 6 = true ∧ s.periphReq = true) := by
  unfold State.intReq
  simp only [Bool.or_eq_true, Bool.and_eq_true, or_assoc]

/-- Settles O56: line 2 is `State.setInputs`, and the three cases are those of line 4 in an awake core. -/
theorem noInterruptEntryOutsideItsCondition : Obligations.NoInterruptEntryOutsideItsCondition := by
  refine ⟨fun s => ⟨setInputs_dropChoice s, rfl, setInputs_intcon_getLsbD s.choice s.dropChoice, fun b hnew => ?new,
    fun hkept => ?kept⟩, intReq_iff, fun s hreset htimeout hawake => ?line4⟩
  case new => exact congrArg (Option.getD · s.periphReq) hnew
  case kept => exact congrArg (Option.getD · s.periphReq) hkept
  case line4 =>
    obtain ⟨hno, hput, hentry⟩ := wakesTo_of_awake hreset htimeout hawake
    exact ⟨hno, hput, fun hgie hreq hdue => (hentry hgie hreq (.inr hdue)).1⟩

/-! ### The watchdog -/

/-- A time-out that cannot be delivered is not looked at (R247). -/
theorem inputPhase_of_no_timeout {e : EnvChoice} {s : State}
    (h : (e.wdtTimeout && (s.setInputs e).timeoutPossible) = false) :
    inputPhase e s = inputPhase { e with wdtTimeout := false } s := by
  unfold inputPhase
  simp only [h]
  rfl

/-- Without a time-out that comes, the environment's choice of one changes nothing in lines 1 to 4 (R247). -/
theorem envPhase_of_no_timeout {s : State} {e : EnvChoice} {rest : List EnvChoice} (henv : s.env = e :: rest)
    (htimeout : ¬timeoutComes s) : envPhase s = envPhase { s with env := { e with wdtTimeout := false } :: rest } := by
  have hchoice : s.choice = e := by rw [State.choice, henv]; rfl
  have hdrop : ({ s with env := { e with wdtTimeout := false } :: rest } : State).dropChoice = s.dropChoice := by
    unfold State.dropChoice
    rw [henv]
    rfl
  have hnone : (e.wdtTimeout && (s.dropChoice.setInputs e).timeoutPossible) = false := by
    rw [← hchoice, setInputs_dropChoice, Bool.eq_false_iff, ne_eq, timeout_iff]
    exact htimeout
  unfold envPhase
  rw [hdrop, hchoice, inputPhase_of_no_timeout hnone]
  rfl

/-- Settles O59: a time-out wakes a sleeping core to line 4, and one that does not come is not looked at. -/
theorem watchdogWakesAndIsSilentWhenDisabled : Obligations.WatchdogWakesAndIsSilentWhenDisabled := by
  refine ⟨fun s hreset htimeout hasleep => ?wakes, fun s e rest henv htimeout => ?silent⟩
  case wakes =>
    have hphase := envPhase_of_timeout hreset htimeout
    rw [if_pos hasleep] at hphase
    exact wakesTo_of_awakePhase hphase rfl rfl rfl rfl rfl
  case silent =>
    unfold step
    rw [envPhase_of_no_timeout henv htimeout]

end Sys2Proof.Machine
end
